-- ==== Sys2Proof/Word.lean ====
section
/-! DEFINITION. The words of the block: the 32-bit word of the register port and the codec (R7), and the machine word of the trap-vector register. -/

namespace Sys2Proof

/-- A 32-bit word (R7: "A \"word\" with no width stated is 32 bits"). -/
abbrev Word := BitVec 32

/-- The carrier of a machine word of `MXLEN` bits: 64 bits, of which a build with `MXLEN = 32` uses the low 32
(log entry 4). -/
abbrev MWord := BitVec 64

/-- The two widths that the parameter `MXLEN` admits (R5). -/
inductive Mxlen where
  /-- `MXLEN = 32`. -/
  | w32
  /-- `MXLEN = 64`, the default of R5. -/
  | w64
deriving DecidableEq, Repr

end Sys2Proof
end

