-- ==== Sys2Proof/Machine/Codec.lean ====
section
/-! DEFINITION. The bit-field codec (40_bitfield_codec.md): the two pure functions on a 32-bit word that every field access of the block goes through. -/

namespace Sys2Proof.Machine

/-- `width = high - low + 1` (R100). -/
def fieldWidth (high low : Nat) : Nat := high - low + 1

/-- `read_bits(word, high, low)` (R100), for `low <= high <= 31`: `(word >> low) mod 2^width` over the natural numbers. -/
def readBits (word : Word) (high low : Nat) : Word :=
  BitVec.ofNat 32 ((word.toNat >>> low) % 2 ^ fieldWidth high low)

/-- `mask = (2^width - 1) << low` (R101). -/
def fieldMask (high low : Nat) : Word :=
  BitVec.ofNat 32 ((2 ^ fieldWidth high low - 1) <<< low)

/-- `write_bits(word, high, low, value)` (R101), for `low <= high <= 31`. -/
def writeBits (word : Word) (high low : Nat) (value : Word) : Word :=
  (word &&& ~~~fieldMask high low) ||| ((value <<< low) &&& fieldMask high low)

end Sys2Proof.Machine
end

