-- ==== Sys2Proof/Config.lean ====
section
/-! DEFINITION. What a model instance fixes (the parameters of R5) and the free values of the spec (`any_31`, `any_32`). -/

namespace Sys2Proof

/-- The parameters of R5 that are fixed for the life of a model instance. A state carries them as a constant (log entry 3), so
that a statement about every state is a statement about every instance, both builds and both widths among them. -/
structure Build where
  /-- `MXLEN` (R5, D3). -/
  mxlen : Mxlen
  /-- `CLIC_SUPPORT` (R6, D4): true in a CLIC build. -/
  clicSupport : Bool
  /-- `N_INT` (R5, D32): how many control blocks are implemented. -/
  nInt : Nat
  /-- `CLIC_BASE` (R5, D31). -/
  clicBase : Nat
  /-- `SYST_BASE` (R5, D31); the timer itself is out of scope. -/
  systBase : Nat
  /-- `CLICINFO_VALUE` (R14, D17). -/
  clicinfo : Word
  /-- `REQUESTERS` (R5, D30): the members are the numbers below this one. -/
  requesters : Nat
  /-- `HW_PEND` (R27, D22). -/
  hwPend : Bool
deriving DecidableEq, Repr

/-- The bounds that R5 sets on the parameters, with a base address on the 4-byte grid of R42. -/
def Build.wf (b : Build) : Bool :=
  decide (1 ≤ b.nInt) && decide (b.nInt ≤ 4096) && decide (1 ≤ b.requesters) && decide (b.clicBase % 4 = 0)

/-- The instance of `State.reset`: the defaults of R5, and for the three parameters that R5 gives no default
(`CLIC_BASE`, `SYST_BASE`, `CLICINFO_VALUE`) a value the model names. DESIGN CHOICE, unsafe: log entry 2. -/
def Build.standard : Build where
  mxlen := .w64
  clicSupport := true
  nInt := 4096
  clicBase := 0
  systBase := 0x20000
  clicinfo := 0
  requesters := 1
  hwPend := false

/-- The draws `any_32` of R105: "an unspecified 32-bit value, possibly different at each use". A free value (safe): log entry 8. -/
opaque Config.any32 : Nat → BitVec 32

/-- The draws `any_31` of R47, bits [31:1] of a raw read of `pending` or `enabled`. A free value (safe): log entry 8. -/
opaque Config.any31 : Nat → BitVec 31

end Sys2Proof
end

