-- ==== Sys2Proof/Syntax.lean ====
section
/-! DEFINITION. The abstract syntax of a command: one constructor for each of the 29 operations of R83, with the operands that the command word carries (R76). The data operands `A` and `B` travel beside the word (R75) and are not part of it. -/

namespace Sys2Proof

/-- Trigger type, the value of `attr[2:1]` and the immediate of `SET_TRIG` (R70). -/
inductive Trigger where
  | levelPositive
  | edgePositive
  | levelNegative
  | edgeNegative
deriving DecidableEq, Repr

/-- Trap-delivery mode as an operand of `MTVEC_WRITE` and as a decoded value (R71). Code 2 is reserved and names no mode. -/
inductive TrapMode where
  | direct
  | vectored
  | clic
deriving DecidableEq, Repr

/-- CLIC sub-mode (R72): "currently only \"Default\"=0 is defined". -/
inductive SubMode where
  | default
deriving DecidableEq, Repr

/-- The operations of R83, in the order of the opcode map. -/
inductive Instr where
  /-- `READ_BITS`, 0x01, format B (R102). -/
  | readBits (high low : BitVec 5)
  /-- `WRITE_BITS`, 0x02, format B (R103). -/
  | writeBits (high low : BitVec 5)
  /-- `TAKE`, 0x10, format Z (R110). -/
  | take
  /-- `STEAL`, 0x11, format Z (R111). -/
  | steal
  /-- `MASK`, 0x20, format X (R120). -/
  | mask (idx : BitVec 12)
  /-- `UNMASK`, 0x21, format X (R121). -/
  | unmask (idx : BitVec 12)
  /-- `IS_ENABLED`, 0x22, format X (R122). -/
  | isEnabled (idx : BitVec 12)
  /-- `IS_PENDING`, 0x23, format X (R123). -/
  | isPending (idx : BitVec 12)
  /-- `PEND`, 0x24, format X (R124). -/
  | pend (idx : BitVec 12)
  /-- `UNPEND`, 0x25, format X (R125). -/
  | unpend (idx : BitVec 12)
  /-- `GET_PRIORITY`, 0x26, format X (R126). -/
  | getPriority (idx : BitVec 12)
  /-- `SET_PRIORITY`, 0x27, format X with an 8-bit immediate (R127). -/
  | setPriority (idx : BitVec 12) (value : BitVec 8)
  /-- `IS_ACTIVE`, 0x28, format X (R128). -/
  | isActive (idx : BitVec 12)
  /-- `ENABLE_SHV`, 0x29, format X (R129). -/
  | enableShv (idx : BitVec 12)
  /-- `DISABLE_SHV`, 0x2A, format X (R130). -/
  | disableShv (idx : BitVec 12)
  /-- `SET_TRIG`, 0x2B, format X with a 2-bit immediate (R131). -/
  | setTrig (idx : BitVec 12) (trig : Trigger)
  /-- `SET_MODE_BIT_WIDTH`, 0x30, format Z, `n` on operand `B` (R150). -/
  | setModeBitWidth
  /-- `GET_MODE_BIT_WIDTH`, 0x31, format Z (R151). -/
  | getModeBitWidth
  /-- `SET_LEVEL_BIT_WIDTH`, 0x32, format Z, `n` on operand `B` (R152). -/
  | setLevelBitWidth
  /-- `GET_LEVEL_BIT_WIDTH`, 0x33, format Z (R153). -/
  | getLevelBitWidth
  /-- `HAS_INTERRUPT_VECTORING`, 0x34, format Z (R154). -/
  | hasInterruptVectoring
  /-- `GET_NUM_INT`, 0x35, format Z (R155). -/
  | getNumInt
  /-- `GET_POSSIBLE_LEVEL_BITS`, 0x36, format Z (R156). -/
  | getPossibleLevelBits
  /-- `GET_VERSION`, 0x37, format Z (R157). -/
  | getVersion
  /-- `GET_MAX_INTERRUPTS`, 0x38, format Z (R158). -/
  | getMaxInterrupts
  /-- `MTVEC_ADDRESS`, 0x40, format Z (R173). -/
  | mtvecAddress
  /-- `MTVEC_TRAP_MODE`, 0x41, format Z (R174). -/
  | mtvecTrapMode
  /-- `MTVEC_SUB_MODE`, 0x42, format Z, CLIC builds only (R175). -/
  | mtvecSubMode
  /-- `MTVEC_WRITE`, 0x43, format V (R176). -/
  | mtvecWrite (submode : SubMode) (mode : TrapMode)
deriving DecidableEq, Repr

end Sys2Proof
end

