-- ==== Sys2Proof/WellFormed.lean ====
section
/-! DEFINITION. Which commands of the syntax exist in a build. Every operand that the types of Syntax.lean admit is legal, but for the two forms that R86 (c) and (d) confine to CLIC builds. -/

namespace Sys2Proof

/-- R86 (c): the mode operand CLIC exists in a CLIC build only. -/
def TrapMode.wf (clic : Bool) : TrapMode → Bool
  | .direct => true
  | .vectored => true
  | .clic => clic

/-- A command that exists in the build (R86 (c), (d)); `clic` is the parameter `CLIC_SUPPORT`. -/
def Instr.wf (clic : Bool) : Instr → Bool
  | .mtvecSubMode => clic
  | .mtvecWrite _ mode => mode.wf clic
  | .readBits _ _ | .writeBits _ _ | .take | .steal | .mask _ | .unmask _ | .isEnabled _ | .isPending _ | .pend _
  | .unpend _ | .getPriority _ | .setPriority _ _ | .isActive _ | .enableShv _ | .disableShv _ | .setTrig _ _
  | .setModeBitWidth | .getModeBitWidth | .setLevelBitWidth | .getLevelBitWidth | .hasInterruptVectoring
  | .getNumInt | .getPossibleLevelBits | .getVersion | .getMaxInterrupts | .mtvecAddress | .mtvecTrapMode => true

end Sys2Proof
end

