-- ==== Sys2Proof/Decode.lean ====
section
/-! DEFINITION. The decoder of a command word (R76, R83 to R86), total and rejecting by name, and after it the encoder. -/

namespace Sys2Proof

/-- Why a word names no operation. Each reason leads to the reply `ILLEGAL` (R85, R86). -/
inductive DecodeError where
  /-- R85 (a): one of the 227 reserved operation codes. -/
  | reservedOpcode
  /-- R85 (b): a must-be-zero bit of the format is 1. -/
  | mustBeZero
  /-- R86 (a): mode 2 names no mode. -/
  | reservedMode
  /-- R86 (b): only sub-mode 0 is defined. -/
  | undefinedSubMode
  /-- R86 (c), (d): a form of CLIC builds in a non-CLIC build. -/
  | clicBuildOnly
deriving DecidableEq, Repr

/-- The code of a trigger type (R70). -/
def Trigger.code : Trigger → BitVec 2
  | .levelPositive => 0
  | .edgePositive => 1
  | .levelNegative => 2
  | .edgeNegative => 3

/-- The trigger type of a code; total, since "none is reserved" (R70). -/
def decodeTrigger (t : BitVec 2) : Trigger :=
  if t = 0 then .levelPositive else if t = 1 then .edgePositive else if t = 2 then .levelNegative else .edgeNegative

/-- The code of a trap-delivery mode (R71). -/
def TrapMode.code : TrapMode → BitVec 2
  | .direct => 0
  | .vectored => 1
  | .clic => 3

/-- `decode_mode` of R71. -/
def decodeMode (clic : Bool) (m : BitVec 2) : Option TrapMode :=
  if m = 0 then some .direct
  else if m = 1 then some .vectored
  else if m = 2 then none
  else if clic then some .clic else none

/-- The code of a sub-mode (R72). -/
def SubMode.code : SubMode → BitVec 4
  | .default => 0

/-- `decode_submode` of R72. -/
def decodeSubMode (m : BitVec 4) : Option SubMode :=
  if m = 0 then some .default else none

/-- Format Z (R76): bits [23:0] must be zero. -/
def decodeZ (w : Word) (i : Instr) : Except DecodeError Instr :=
  if w.extractLsb' 0 24 = 0 then .ok i else .error .mustBeZero

/-- Format X without an immediate (R76): `idx` in [23:12], bits [11:0] must be zero. -/
def decodeX (w : Word) (i : BitVec 12 → Instr) : Except DecodeError Instr :=
  if w.extractLsb' 0 12 = 0 then .ok (i (w.extractLsb' 12 12)) else .error .mustBeZero

/-- Format X of `SET_PRIORITY` (R76): `value` in [7:0], bits [11:8] must be zero. -/
def decodeSetPriority (w : Word) : Except DecodeError Instr :=
  if w.extractLsb' 8 4 = 0 then .ok (.setPriority (w.extractLsb' 12 12) (w.extractLsb' 0 8)) else .error .mustBeZero

/-- Format X of `SET_TRIG` (R76): `trig` in [1:0], bits [11:2] must be zero. -/
def decodeSetTrig (w : Word) : Except DecodeError Instr :=
  if w.extractLsb' 2 10 = 0 then .ok (.setTrig (w.extractLsb' 12 12) (decodeTrigger (w.extractLsb' 0 2)))
  else .error .mustBeZero

/-- Format B (R76): `high` in [9:5], `low` in [4:0], bits [23:10] must be zero. -/
def decodeB (w : Word) (i : BitVec 5 → BitVec 5 → Instr) : Except DecodeError Instr :=
  if w.extractLsb' 10 14 = 0 then .ok (i (w.extractLsb' 5 5) (w.extractLsb' 0 5)) else .error .mustBeZero

/-- Format V (R76, R86 (a) to (c)): `submode` in [5:2], `mode` in [1:0], bits [23:6] must be zero. -/
def decodeV (clic : Bool) (w : Word) : Except DecodeError Instr :=
  if w.extractLsb' 6 18 = 0 then
    match decodeSubMode (w.extractLsb' 2 4) with
    | none => .error .undefinedSubMode
    | some sub =>
      match decodeMode clic (w.extractLsb' 0 2) with
      | some mode => .ok (.mtvecWrite sub mode)
      | none => .error (if w.extractLsb' 0 2 = 2 then .reservedMode else .clicBuildOnly)
  else .error .mustBeZero

/-- `MTVEC_SUB_MODE` (R86 (d)): a format Z command of CLIC builds only. -/
def decodeSubModeOp (clic : Bool) (w : Word) : Except DecodeError Instr :=
  if clic then decodeZ w .mtvecSubMode else .error .clicBuildOnly

/-- The decoder (R84): first `opc`, then the must-be-zero bits, then the operand values. It reads no state but the build
parameter `CLIC_SUPPORT`. -/
def decode (clic : Bool) (w : Word) : Except DecodeError Instr :=
  match (w.extractLsb' 24 8).toNat with
  | 0x01 => decodeB w .readBits
  | 0x02 => decodeB w .writeBits
  | 0x10 => decodeZ w .take
  | 0x11 => decodeZ w .steal
  | 0x20 => decodeX w .mask
  | 0x21 => decodeX w .unmask
  | 0x22 => decodeX w .isEnabled
  | 0x23 => decodeX w .isPending
  | 0x24 => decodeX w .pend
  | 0x25 => decodeX w .unpend
  | 0x26 => decodeX w .getPriority
  | 0x27 => decodeSetPriority w
  | 0x28 => decodeX w .isActive
  | 0x29 => decodeX w .enableShv
  | 0x2A => decodeX w .disableShv
  | 0x2B => decodeSetTrig w
  | 0x30 => decodeZ w .setModeBitWidth
  | 0x31 => decodeZ w .getModeBitWidth
  | 0x32 => decodeZ w .setLevelBitWidth
  | 0x33 => decodeZ w .getLevelBitWidth
  | 0x34 => decodeZ w .hasInterruptVectoring
  | 0x35 => decodeZ w .getNumInt
  | 0x36 => decodeZ w .getPossibleLevelBits
  | 0x37 => decodeZ w .getVersion
  | 0x38 => decodeZ w .getMaxInterrupts
  | 0x40 => decodeZ w .mtvecAddress
  | 0x41 => decodeZ w .mtvecTrapMode
  | 0x42 => decodeSubModeOp clic w
  | 0x43 => decodeV clic w
  | _ => .error .reservedOpcode

/-- A word of format Z (R76): `opc<<24`. -/
def encodeZ (opc : BitVec 8) : Word := opc.setWidth 32 <<< 24

/-- A word of format X (R76): `opc<<24 | idx<<12 | imm12`. -/
def encodeX (opc : BitVec 8) (idx imm : BitVec 12) : Word :=
  (opc.setWidth 32 <<< 24) ||| (idx.setWidth 32 <<< 12) ||| imm.setWidth 32

/-- A word of format B (R76): `opc<<24 | high<<5 | low`. -/
def encodeB (opc : BitVec 8) (high low : BitVec 5) : Word :=
  (opc.setWidth 32 <<< 24) ||| (high.setWidth 32 <<< 5) ||| low.setWidth 32

/-- A word of format V (R76): `opc<<24 | submode<<2 | mode`. -/
def encodeV (opc : BitVec 8) (submode : BitVec 4) (mode : BitVec 2) : Word :=
  (opc.setWidth 32 <<< 24) ||| (submode.setWidth 32 <<< 2) ||| mode.setWidth 32

/-- The operation code of R83. -/
def Instr.opc : Instr → BitVec 8
  | .readBits _ _ => 0x01
  | .writeBits _ _ => 0x02
  | .take => 0x10
  | .steal => 0x11
  | .mask _ => 0x20
  | .unmask _ => 0x21
  | .isEnabled _ => 0x22
  | .isPending _ => 0x23
  | .pend _ => 0x24
  | .unpend _ => 0x25
  | .getPriority _ => 0x26
  | .setPriority _ _ => 0x27
  | .isActive _ => 0x28
  | .enableShv _ => 0x29
  | .disableShv _ => 0x2A
  | .setTrig _ _ => 0x2B
  | .setModeBitWidth => 0x30
  | .getModeBitWidth => 0x31
  | .setLevelBitWidth => 0x32
  | .getLevelBitWidth => 0x33
  | .hasInterruptVectoring => 0x34
  | .getNumInt => 0x35
  | .getPossibleLevelBits => 0x36
  | .getVersion => 0x37
  | .getMaxInterrupts => 0x38
  | .mtvecAddress => 0x40
  | .mtvecTrapMode => 0x41
  | .mtvecSubMode => 0x42
  | .mtvecWrite _ _ => 0x43

/-- The encoder: the command word of an operation, from the formats of R76 and the codes of R83. -/
def encode (i : Instr) : Word :=
  match i with
  | .readBits high low | .writeBits high low => encodeB i.opc high low
  | .mask idx | .unmask idx | .isEnabled idx | .isPending idx | .pend idx | .unpend idx | .getPriority idx
  | .isActive idx | .enableShv idx | .disableShv idx => encodeX i.opc idx 0
  | .setPriority idx value => encodeX i.opc idx (value.setWidth 12)
  | .setTrig idx trig => encodeX i.opc idx (trig.code.setWidth 12)
  | .mtvecWrite submode mode => encodeV i.opc submode.code mode.code
  | .take | .steal | .setModeBitWidth | .getModeBitWidth | .setLevelBitWidth | .getLevelBitWidth
  | .hasInterruptVectoring | .getNumInt | .getPossibleLevelBits | .getVersion | .getMaxInterrupts | .mtvecAddress
  | .mtvecTrapMode | .mtvecSubMode => encodeZ i.opc

/-- The command word that the low `nbits` bits of `w` make, zeros above them. -/
def tableWord (nbits w : Nat) : Word := BitVec.ofNat 32 (w % 2 ^ nbits)

/-- The host's reading of the decoder: the operation of the build of `State.reset` (a CLIC build) that the word names. A
command is one 32-bit word (R76), so a longer one is none. -/
def decodeTableWord (nbits w : Nat) : Option Instr :=
  if nbits ≤ 32 then (decode Build.standard.clicSupport (tableWord nbits w)).toOption else none

end Sys2Proof
end

