-- ==== Sys2Proof/Machine/State.lean ====
section
/-! DEFINITION. The state of a model instance: the state tuple at the head of 10_state.md, the inputs and outputs of the ports, and the data that says which agent moves next (R251). All of it is plain data. -/

namespace Sys2Proof.Machine

/-- Why the machine stops with a fault. -/
inductive Fault where
  /-- A raw register-port transaction to an address outside the register space of R40, where the spec places no register.
  Raised by `memRead` and `memWrite` only; no operation of the block can raise it. Safe: the model stops where a platform
  would answer from another device (log entry 11). -/
  | noSuchAddress
deriving DecidableEq, Repr

/-- Why the model gives a step no meaning ("a model refuses it (the requester has no step)"). All are safe: the model stops
where the hardware may go on. -/
inductive Refusal where
  /-- An arm of `exec` without a meaning. No arm answers so in this model. -/
  | notModelled (mnemonic : String)
  /-- R42, U18: a raw transaction of a width other than 4 bytes or at an address that is no multiple of 4. -/
  | badTransaction
  /-- R45, U12: a raw transaction to the reserved padding, offsets 0x008 to 0xFFF. -/
  | reservedPadding
  /-- R46, U7: a raw transaction to, or an operation on, a control block at or above `N_INT`. -/
  | unimplementedBlock
  /-- U24: a raw transaction to the SYST window, which is out of scope (R4 (a)). -/
  | systRegister
deriving DecidableEq, Repr

/-- The status output `S` (R88). Code 3 is never produced. -/
inductive Status where
  | ok
  | none
  | illegal
deriving DecidableEq, Repr

/-- What a step drives on the outputs of the ports. -/
inductive Output where
  /-- `reply(S, R)` to a requester's command; `result` is `R`, zero-extended (R75, R88). -/
  | reply (requester : Nat) (status : Status) (result : MWord)
  /-- The 32-bit word that a raw `MemRead` returned (R41). -/
  | memData (requester : Nat) (word : Word)
  /-- The MXLEN-bit word that a raw `CsrRead` returned (R50). -/
  | csrData (requester : Nat) (word : MWord)
deriving DecidableEq, Repr

/-- The three inputs of the command port (R75). -/
structure Command where
  /-- The command word `cmd`. -/
  cmd : Word
  /-- The data operand `A`, MXLEN bits. -/
  a : MWord
  /-- The data operand `B`. -/
  b : Word
deriving DecidableEq, Repr

/-- The command port: the command that stands on it, and the requester that issued it, which the port names only
implicitly (R75). -/
structure Port where
  requester : Nat
  command : Command
deriving DecidableEq, Repr

/-- One thing a requester does: a command, or a raw transaction (the preamble of 20_memory.md, R246). -/
inductive Action where
  | command (c : Command)
  /-- `MemRead(addr, n)`. -/
  | memRead (addr n : Nat)
  /-- `MemWrite(addr, n, v)`. -/
  | memWrite (addr n : Nat) (v : Word)
  /-- `CsrRead(MTVEC)`. -/
  | csrRead
  /-- `CsrWrite(MTVEC, v)`. -/
  | csrWrite (v : MWord)
deriving DecidableEq, Repr

/-- One entry of the schedule: the agent that takes the next step in the total order of R53. -/
inductive Move where
  /-- Requester `q` takes one step: the next transaction of the operation it has in flight, or its next action. -/
  | requester (q : Nat)
  /-- The environment changes the input `TCAUSE` (R24). -/
  | tcause (v : MWord)
  /-- The interrupt source sets or clears `P[i]` (R27, under `HW_PEND`). -/
  | pending (i : Nat) (flag : Bool)
deriving DecidableEq, Repr

/-- `INFLIGHT[q]` (R25): the operation, with the operands it was issued with, and the word its read transaction returned. -/
structure Inflight where
  op : Instr
  command : Command
  word : Word
deriving DecidableEq, Repr

/-- The machine. A register array is a list of (index, value) pairs in the canonical form of `RegMap.wf` (Machine/RegMap.lean):
indices strictly rising, and no entry equal to what an unlisted index holds, which is 0 (log entry 10). -/
structure State where
  /-- The parameters of R5: constants of the instance (log entry 3). -/
  build : Build
  /-- `CFGW`, `cliccfg` (R13). -/
  cfgw : Word
  /-- `P[i]` (R16). -/
  pend : List (Nat × Bool)
  /-- `E[i]` (R17). -/
  en : List (Nat × Bool)
  /-- `ATTRW[i]` (R18). -/
  attr : List (Nat × Word)
  /-- `CTLW[i]` (R19). -/
  ctl : List (Nat × Word)
  /-- `MTVEC` (R21), of which MXLEN bits are used. -/
  mtvec : MWord
  /-- `TAKEN` (R23): true for 1. -/
  taken : Bool
  /-- `INFLIGHT[q]` (R25); an unlisted requester has none. -/
  inflight : List (Nat × Option Inflight)
  /-- The input `TCAUSE` (R24), as the environment last set it. -/
  tcause : MWord
  /-- The command port's inputs (R75); between commands they keep the last command and requester, which is the model's choice
  (DESIGN CHOICE, log entry 27). -/
  port : Port
  /-- What the last step drove on the outputs; none when it drove nothing (log entry 6). -/
  out : Option Output
  /-- What each requester has still to issue, in program order (R54, R251). -/
  programs : List (Nat × List Action)
  /-- Who moves next (R53, R251). -/
  schedule : List Move
  /-- The model's own counter of draws, the argument of the free values of Config.lean (log entry 8). -/
  draws : Nat
deriving DecidableEq, Repr

/-- The `RESET_*` parameters (R5, R30), each "unspecified". -/
structure ResetValues where
  /-- `RESET_CFG`. -/
  cfgw : Word
  /-- `RESET_P[i]`. -/
  pend : List (Nat × Bool)
  /-- `RESET_E[i]`. -/
  en : List (Nat × Bool)
  /-- `RESET_ATTR[i]`. -/
  attr : List (Nat × Word)
  /-- `RESET_CTL[i]`. -/
  ctl : List (Nat × Word)
  /-- `RESET_MTVEC`. -/
  mtvec : MWord
  /-- The input `TCAUSE` as it stands at reset ("input, unspecified"). -/
  tcause : MWord
deriving DecidableEq, Repr

/-- The reset values that `State.reset` names: zero, where the spec states none. DESIGN CHOICE, unsafe: log entry 1. -/
def ResetValues.zero : ResetValues where
  cfgw := 0
  pend := []
  en := []
  attr := []
  ctl := []
  mtvec := 0
  tcause := 0

/-- The state after reset (R30, R230) of the instance `b` for the reset parameters `v`: `TAKEN` is 0, no operation is in
flight, every other register stands at its `RESET_*` parameter; no program is loaded and no move is scheduled. -/
def State.resetWith (b : Build) (v : ResetValues) : State where
  build := b
  cfgw := v.cfgw
  pend := v.pend
  en := v.en
  attr := v.attr
  ctl := v.ctl
  mtvec := v.mtvec
  taken := false
  inflight := []
  tcause := v.tcause
  port := ⟨0, ⟨0, 0, 0⟩⟩
  out := none
  programs := []
  schedule := []
  draws := 0

/-- The machine right after reset, with the instance and the reset values that the log names (log entries 1 and 2). -/
def State.reset : State := State.resetWith Build.standard ResetValues.zero

end Sys2Proof.Machine
end

