-- ==== Sys2Proof/Machine/Flags.lean ====
section
/-! DEFINITION. The status codes and the form of a result (R88). The block has no condition codes (R12); its one-bit results are Bools carried as 1 and 0. -/

namespace Sys2Proof.Machine

/-- The code of the status output `S` (R88). -/
def Status.code : Status → BitVec 2
  | .ok => 0
  | .none => 1
  | .illegal => 2

/-- "Bool results are 1 and 0" (R88). -/
def boolResult (b : Bool) : MWord := if b then 1 else 0

/-- A 32-bit result zero-extended to MXLEN bits (R88). -/
def wordResult (w : Word) : MWord := w.setWidth 64

/-- The numeric code of a delivery mode as a result (R88): Direct 0, Vectored 1, Clic 3. -/
def modeResult (m : TrapMode) : MWord := m.code.setWidth 64

/-- The numeric code of a sub-mode as a result (R88): Default 0. -/
def subModeResult (m : SubMode) : MWord := m.code.setWidth 64

end Sys2Proof.Machine
end

