-- ==== Sys2Proof/Machine/Operands.lean ====
section
/-! DEFINITION. Operand assembly (R77): what an operation takes from the command port. No operand is sign-extended, scaled or shifted. -/

namespace Sys2Proof.Machine

/-- The low MXLEN bits of a machine word. -/
def truncM (m : Mxlen) (w : MWord) : MWord :=
  match m with
  | .w32 => w &&& 0xFFFFFFFF#64
  | .w64 => w

/-- `word = A[31:0]` (R77, R102): the upper bits of `A` are ignored. -/
def State.wordA (s : State) : Word := s.port.command.a.setWidth 32

/-- `value = B` and `n = B` (R77). -/
def State.valueB (s : State) : Word := s.port.command.b

/-- `addr = A`, all MXLEN bits (R77, R176). -/
def State.addrA (s : State) : MWord := truncM s.build.mxlen s.port.command.a

/-- A bit position of format B: an unsigned number, 0 to 31 (R76). -/
def position (p : BitVec 5) : Nat := p.toNat

/-- The interrupt index of format X: an unsigned number, 0 to 4095 (R76, R135). -/
def index (idx : BitVec 12) : Nat := idx.toNat

end Sys2Proof.Machine
end

