-- ==== Sys2Proof/Machine/RegMap.lean ====
section
/-! DEFINITION. A register array as plain data: a list of (index, value) pairs in one canonical form, with a value `d` that an unlisted index holds. Used for the control blocks (R15) and for what is held per requester (R25, R251). -/

namespace Sys2Proof.Machine

/-- What index `k` holds. -/
def RegMap.get {V : Type} (d : V) (m : List (Nat × V)) (k : Nat) : V :=
  match m with
  | [] => d
  | (k', v) :: rest => if k' = k then v else RegMap.get d rest k

/-- The list without the entries of index `k`. -/
def RegMap.erase {V : Type} (m : List (Nat × V)) (k : Nat) : List (Nat × V) :=
  match m with
  | [] => []
  | (k', v) :: rest => if k' = k then RegMap.erase rest k else (k', v) :: RegMap.erase rest k

/-- An entry put before the first greater index. -/
def RegMap.insert {V : Type} (m : List (Nat × V)) (k : Nat) (v : V) : List (Nat × V) :=
  match m with
  | [] => [(k, v)]
  | (k', v') :: rest => if k < k' then (k, v) :: (k', v') :: rest else (k', v') :: RegMap.insert rest k v

/-- The array with `v` at index `k`. Writing what an unlisted index holds removes the entry, so that equal arrays are
equal lists. -/
def RegMap.set {V : Type} [DecidableEq V] (d : V) (m : List (Nat × V)) (k : Nat) (v : V) : List (Nat × V) :=
  if v = d then RegMap.erase m k else RegMap.insert (RegMap.erase m k) k v

/-- Every listed index lies above `k`. -/
def RegMap.above {V : Type} (k : Nat) (m : List (Nat × V)) : Bool :=
  m.all fun e => decide (k < e.1)

/-- The canonical form: indices strictly rising, and no entry equal to what an unlisted index holds. -/
def RegMap.wf {V : Type} [DecidableEq V] (d : V) (m : List (Nat × V)) : Bool :=
  match m with
  | [] => true
  | (k, v) :: rest => decide (v ≠ d) && RegMap.above k rest && RegMap.wf d rest

/-- Every listed index lies below `n`. -/
def RegMap.below {V : Type} (n : Nat) (m : List (Nat × V)) : Bool :=
  m.all fun e => decide (e.1 < n)

end Sys2Proof.Machine
end

