-- ==== Sys2Proof/Machine/Ops.lean ====
section
/-! DEFINITION. The operations over the state that every meaning is made of: the register map, the two ports, the replies, the shared shapes of an operation (one read, one write, a read and then a write), and the moves of the environment. The block takes no trap and raises no exception (R200), so there is no exception entry and no return from one. -/

namespace Sys2Proof.Machine

/-! ## The registers of the register space (R44) -/

/-- The registers of the CLIC register block. -/
inductive Reg where
  | cfg
  | info
  | pend (i : Nat)
  | en (i : Nat)
  | attr (i : Nat)
  | ctl (i : Nat)
deriving DecidableEq, Repr

/-- The byte offset of a register from `CLIC_BASE` (R44 and section 5.2 of 00_scope.md). -/
def Reg.offset : Reg → Nat
  | .cfg => 0x0000
  | .info => 0x0004
  | .pend i => 0x1000 + 16 * i + 0
  | .en i => 0x1000 + 16 * i + 4
  | .attr i => 0x1000 + 16 * i + 8
  | .ctl i => 0x1000 + 16 * i + 12

/-- The byte address of a register. -/
def Reg.addr (b : Build) (r : Reg) : Nat := b.clicBase + r.offset

/-- Whether the instance has the register (R46): a control block exists below `N_INT`. -/
def Reg.implemented (b : Build) : Reg → Bool
  | .cfg => true
  | .info => true
  | .pend i => decide (i < b.nInt)
  | .en i => decide (i < b.nInt)
  | .attr i => decide (i < b.nInt)
  | .ctl i => decide (i < b.nInt)

/-- `P[i]` (R16). -/
def State.pending (s : State) (i : Nat) : Bool := RegMap.get false s.pend i

/-- `E[i]` (R17). -/
def State.enabled (s : State) (i : Nat) : Bool := RegMap.get false s.en i

/-- `ATTRW[i]` (R18). -/
def State.attrw (s : State) (i : Nat) : Word := RegMap.get 0 s.attr i

/-- `CTLW[i]` (R19). -/
def State.ctlw (s : State) (i : Nat) : Word := RegMap.get 0 s.ctl i

/-- A flag as the word that holds it in bit 0. -/
def flagWord (f : Bool) : Word := if f then 1 else 0

/-- The bits of a register that are state, zeros where the register has none: `pending` and `enabled` are one bit each
(R16, R17), `clicinfo` is the constant of the build (R14). -/
def State.stored (s : State) : Reg → Word
  | .cfg => s.cfgw
  | .info => s.build.clicinfo
  | .pend i => flagWord (s.pending i)
  | .en i => flagWord (s.enabled i)
  | .attr i => s.attrw i
  | .ctl i => s.ctlw i

/-- What a write of `v` to a register changes (R48). A write to `clicinfo` is dropped; `pending` and `enabled` take bit 0. -/
def State.store (s : State) (r : Reg) (v : Word) : State :=
  match r with
  | .cfg => { s with cfgw := v }
  | .info => s
  | .pend i => { s with pend := RegMap.set false s.pend i (v.getLsbD 0) }
  | .en i => { s with en := RegMap.set false s.en i (v.getLsbD 0) }
  | .attr i => { s with attr := RegMap.set 0 s.attr i v }
  | .ctl i => { s with ctl := RegMap.set 0 s.ctl i v }

/-- The read transaction of an operation on a register, less the bits that hold no state, which every operation discards
(R122, R123; log entry 9). Refused where the instance lacks the register (R46). -/
def readReg (s : State) (r : Reg) : Except Refusal Word :=
  if r.implemented s.build then .ok (s.stored r) else .error .unimplementedBlock

/-- The write transaction of an operation on a register (R48). Refused where the instance lacks the register (R46). -/
def writeReg (s : State) (r : Reg) (v : Word) : Except Refusal State :=
  if r.implemented s.build then .ok (s.store r v) else .error .unimplementedBlock

/-! ## The CSR port (R50) -/

/-- `mtvec_legalize` (R21, D18): the identity, kept as a hook. -/
def mtvecLegalize (w : MWord) : MWord := w

/-- `CsrRead(MTVEC)` (R50): the MXLEN-bit word. -/
def csrRead (s : State) : MWord := truncM s.build.mxlen s.mtvec

/-- `CsrWrite(MTVEC, v)` (R50): all MXLEN bits at once. -/
def csrWrite (s : State) (v : MWord) : State :=
  { s with mtvec := mtvecLegalize (truncM s.build.mxlen v) }

/-- The current value of the input `TCAUSE` (R24): MXLEN bits. -/
def sampleTcause (s : State) : MWord := truncM s.build.mxlen s.tcause

/-! ## Replies and operations in flight -/

/-- `reply(S, R)` to the requester of the command on the port (R75, R88). -/
def State.reply (s : State) (status : Status) (result : MWord) : State :=
  { s with out := some (.reply s.port.requester status result) }

/-- `INFLIGHT[q]` (R25). -/
def State.inflightOf (s : State) (q : Nat) : Option Inflight := RegMap.get none s.inflight q

/-- The state with `INFLIGHT[q]` set. -/
def State.setInflight (s : State) (q : Nat) (f : Option Inflight) : State :=
  { s with inflight := RegMap.set none s.inflight q f }

/-- The reply of an illegal command: nothing was performed (R85). -/
def replyIllegal (s : State) : State := s.reply .illegal 0

/-! ## The shapes of an operation (R136) -/

/-- One write transaction, then `reply(OK, 0)`: the flag writers (R136). -/
def writeOp (r : Reg) (v : Word) (s : State) : Host.Outcome State Fault Refusal :=
  match writeReg s r v with
  | .ok t => .next (t.reply .ok 0)
  | .error e => .refused e

/-- One read transaction, then `reply(OK, result of the word)`: the readers (R136). -/
def readOp (r : Reg) (result : Word → MWord) (s : State) : Host.Outcome State Fault Refusal :=
  match readReg s r with
  | .ok w => .next (s.reply .ok (result w))
  | .error e => .refused e

/-- Step 1 of a read-modify-write: the read transaction, after which the operation is in flight with the word read (R25). -/
def beginUpdate (op : Instr) (r : Reg) (s : State) : Host.Outcome State Fault Refusal :=
  match readReg s r with
  | .ok w => .next (s.setInflight s.port.requester (some ⟨op, s.port.command, w⟩))
  | .error e => .refused e

/-- Step 2 of a read-modify-write: the write transaction of the word read in step 1 with the one field replaced, then
`reply(OK, 0)`; nothing is in flight any more (R55, R240). -/
def finishUpdate (r : Reg) (high low : Nat) (v word : Word) (s : State) : Host.Outcome State Fault Refusal :=
  match writeReg s r (writeBits word high low v) with
  | .ok t => .next ((t.setInflight s.port.requester none).reply .ok 0)
  | .error e => .refused e

/-- A read-modify-write of the field `[high:low]` of a register: two transactions, one step each (R55). It is step 2 exactly
when the port's requester has this operation in flight (log entry 20). -/
def updateOp (op : Instr) (r : Reg) (high low : Nat) (v : Word) (s : State) : Host.Outcome State Fault Refusal :=
  match s.inflightOf s.port.requester with
  | none => beginUpdate op r s
  | some f => if f.op = op then finishUpdate r high low v f.word s else beginUpdate op r s

/-! ## The trap-vector functions (44_trap_vector.md) -/

/-- `tv_address` (R170): the low 6 bits masked in a CLIC build, the low 2 in a non-CLIC build, whatever the mode field holds. -/
def tvAddress (b : Build) (w : MWord) : MWord :=
  truncM b.mxlen (if b.clicSupport then w &&& ~~~0x3F#64 else w &&& ~~~0x3#64)

/-- `tv_trap_mode` (R171): decodes bits [1:0]. -/
def tvTrapMode (b : Build) (w : MWord) : Option TrapMode := decodeMode b.clicSupport (w.extractLsb' 0 2)

/-- `tv_sub_mode` (R172): decodes bits [5:2] without regard to the mode field. -/
def tvSubMode (w : MWord) : Option SubMode := decodeSubMode (w.extractLsb' 2 4)

/-- `tv_compose` (R177): the arithmetic sum modulo `2^MXLEN`, not a bitwise or. -/
def tvCompose (b : Build) (addr : MWord) (submode : SubMode) (mode : TrapMode) : MWord :=
  truncM b.mxlen
    (if b.clicSupport then addr + (submode.code.setWidth 64 <<< 2) + mode.code.setWidth 64
     else addr + mode.code.setWidth 64)

/-! ## Raw transactions (R40 to R50) -/

/-- What stands at an address of the register port. -/
inductive Located where
  | reg (r : Reg)
  | fault (f : Fault)
  | refused (r : Refusal)
deriving DecidableEq, Repr

/-- The register of a control block at a byte offset (R44). -/
def locateBlock (b : Build) (off : Nat) : Located :=
  let i := (off - 0x1000) / 16
  if i < b.nInt then
    match (off - 0x1000) % 16 / 4 with
    | 0 => .reg (.pend i)
    | 1 => .reg (.en i)
    | 2 => .reg (.attr i)
    | _ => .reg (.ctl i)
  else .refused .unimplementedBlock

/-- The register at a byte offset below 0x11000 (R44), the reserved padding refused (R45). -/
def locateOffset (b : Build) (off : Nat) : Located :=
  if off < 4 then .reg .cfg
  else if off < 8 then .reg .info
  else if off < 0x1000 then .refused .reservedPadding
  else locateBlock b off

/-- The address decoder of the register port: width and alignment first (R42), then the register space of R40, then the
SYST window (R215, U24); any other address holds nothing. -/
def locate (b : Build) (addr n : Nat) : Located :=
  if n ≠ 4 ∨ addr % 4 ≠ 0 then .refused .badTransaction
  else if b.clicBase ≤ addr ∧ addr < b.clicBase + 0x11000 then locateOffset b (addr - b.clicBase)
  else if b.systBase ≤ addr ∧ addr < b.systBase + 0x28 then .refused .systRegister
  else .fault .noSuchAddress

/-- Whether bits [31:1] of a raw read of the register are unspecified (R47): they are for `pending` and `enabled`. -/
def Reg.openUpper : Reg → Bool
  | .cfg => false
  | .info => false
  | .pend _ => true
  | .en _ => true
  | .attr _ => false
  | .ctl _ => false

/-- The word a raw read returns (R47): `any_31 ++ P[i]` and `any_31 ++ E[i]`, the draw being `u`; the stored word elsewhere. -/
def rawWord (s : State) (r : Reg) (u : BitVec 31) : Word :=
  if r.openUpper then u ++ (s.stored r).extractLsb' 0 1 else s.stored r

/-- A raw `MemRead(addr, n)` of requester `q` (R41, R47): no state of the block changes; a draw is used up where the word
has unspecified bits. -/
def memRead (q addr n : Nat) (s : State) : Host.Outcome State Fault Refusal :=
  match locate s.build addr n with
  | .reg r =>
    .next { s with
      out := some (.memData q (rawWord s r (Config.any31 s.draws)))
      draws := if r.openUpper then s.draws + 1 else s.draws }
  | .fault f => .fault f
  | .refused e => .refused e

/-- A raw `MemWrite(addr, n, v)` (R41, R48). -/
def memWrite (addr n : Nat) (v : Word) (s : State) : Host.Outcome State Fault Refusal :=
  match locate s.build addr n with
  | .reg r => .next (s.store r v)
  | .fault f => .fault f
  | .refused e => .refused e

/-- A raw `CsrRead(MTVEC)` of requester `q` (R50). -/
def rawCsrRead (q : Nat) (s : State) : State := { s with out := some (.csrData q (csrRead s)) }

/-- The stored byte of the register space at a byte offset from `CLIC_BASE`, in the byte order of R43 (little-endian, from
general knowledge; unobservable through the block): none where there is no register. Statements say with it what a step
leaves unchanged; no step uses it. -/
def State.byteAt (s : State) (off : Nat) : Option (BitVec 8) :=
  if off < 0x11000 then
    match locateOffset s.build off with
    | .reg r => some ((s.stored r).extractLsb' (8 * (off % 4)) 8)
    | .fault _ => none
    | .refused _ => none
  else none

/-! ## The moves of the environment (R53) -/

/-- The environment changes `TCAUSE` (R24). -/
def envTcause (v : MWord) (s : State) : State := { s with tcause := truncM s.build.mxlen v }

/-- The interrupt source sets or clears `P[i]`. It exists only under `HW_PEND` and reaches only implemented blocks (R27); else
the move is no one's and changes nothing (log entry 7). -/
def envPending (i : Nat) (flag : Bool) (s : State) : State :=
  if s.build.hwPend && decide (i < s.build.nInt) then { s with pend := RegMap.set false s.pend i flag } else s

/-! ## Command lists -/

/-- What requester `q` has still to issue. -/
def State.programOf (s : State) (q : Nat) : List Action := RegMap.get [] s.programs q

/-- The state with the command list of `q` replaced. -/
def State.setProgram (s : State) (q : Nat) (p : List Action) : State :=
  { s with programs := RegMap.set [] s.programs q p }

/-- The state with a command of requester `q` on the port (R75): `A` is MXLEN bits wide. Nothing else writes the port, so it holds
the last command and its requester until the next `present`; the spec says only that nothing is stored (R10). DESIGN CHOICE:
log entry 27. -/
def State.present (s : State) (q : Nat) (c : Command) : State :=
  { s with port := ⟨q, { c with a := truncM s.build.mxlen c.a }⟩ }

end Sys2Proof.Machine
end

