-- ==== Sys2Proof/Machine/BitField.lean ====
section
/-! DEFINITION. The operations of the bit-field codec (40_bitfield_codec.md, section 2). Neither performs a transaction or touches a register of the block. -/

namespace Sys2Proof.Machine

/-- `reply(OK, zext_MXLEN(value))` for a command within the precondition `low <= high`; outside it the value is `any_32`, a
draw that uses up one count of `draws` (R105, D26). -/
def codecOp (high low : BitVec 5) (value : Word) (s : State) : Host.Outcome State Fault Refusal :=
  if position low ≤ position high then .next (s.reply .ok (wordResult value))
  else .next (({ s with draws := s.draws + 1 } : State).reply .ok (wordResult (Config.any32 s.draws)))

/-- `READ_BITS` (R102). -/
def execReadBits (high low : BitVec 5) (s : State) : Host.Outcome State Fault Refusal :=
  codecOp high low (readBits s.wordA (position high) (position low)) s

/-- `WRITE_BITS` (R103). The new word goes to the requester; no register is written. -/
def execWriteBits (high low : BitVec 5) (s : State) : Host.Outcome State Fault Refusal :=
  codecOp high low (writeBits s.wordA (position high) (position low) s.valueB) s

end Sys2Proof.Machine
end

