-- ==== Sys2Proof/Machine/Gate.lean ====
section
/-! DEFINITION. The ownership gate (41_ownership_gate.md). It guards no other operation (R114). -/

namespace Sys2Proof.Machine

/-- `TAKE` (R110): test and set of `TAKEN` in one atomic step. -/
def execTake (s : State) : Host.Outcome State Fault Refusal :=
  if s.taken then .next (s.reply .none 0) else .next (({ s with taken := true } : State).reply .ok 0)

/-- `STEAL` (R111): sets `TAKEN` unconditionally. -/
def execSteal (s : State) : Host.Outcome State Fault Refusal :=
  .next (({ s with taken := true } : State).reply .ok 0)

end Sys2Proof.Machine
end

