-- ==== Sys2Proof/Machine/Global.lean ====
section
/-! DEFINITION. The global configuration and information operations (43_clic_global_ops.md), on `cliccfg` and `clicinfo`. -/

namespace Sys2Proof.Machine

/-- `SET_MODE_BIT_WIDTH` (R150): read-modify-write of `cliccfg[6:5]`; `n = B`, truncated by the codec. -/
def execSetModeBitWidth (s : State) : Host.Outcome State Fault Refusal :=
  updateOp .setModeBitWidth .cfg 6 5 s.valueB s

/-- `GET_MODE_BIT_WIDTH` (R151): `cliccfg[6:5]`. -/
def execGetModeBitWidth (s : State) : Host.Outcome State Fault Refusal :=
  readOp .cfg (fun w => wordResult (readBits w 6 5)) s

/-- `SET_LEVEL_BIT_WIDTH` (R152): read-modify-write of `cliccfg[4:1]`; `n = B`, truncated by the codec. -/
def execSetLevelBitWidth (s : State) : Host.Outcome State Fault Refusal :=
  updateOp .setLevelBitWidth .cfg 4 1 s.valueB s

/-- `GET_LEVEL_BIT_WIDTH` (R153): `cliccfg[4:1]`. -/
def execGetLevelBitWidth (s : State) : Host.Outcome State Fault Refusal :=
  readOp .cfg (fun w => wordResult (readBits w 4 1)) s

/-- `HAS_INTERRUPT_VECTORING` (R154): true when `cliccfg[0]` is 0, the inverted polarity. -/
def execHasInterruptVectoring (s : State) : Host.Outcome State Fault Refusal :=
  readOp .cfg (fun w => boolResult (readBits w 0 0 == 0)) s

/-- `GET_NUM_INT` (R155): `clicinfo[30:25]`. -/
def execGetNumInt (s : State) : Host.Outcome State Fault Refusal :=
  readOp .info (fun w => wordResult (readBits w 30 25)) s

/-- `GET_POSSIBLE_LEVEL_BITS` (R156): `clicinfo[24:21]`. -/
def execGetPossibleLevelBits (s : State) : Host.Outcome State Fault Refusal :=
  readOp .info (fun w => wordResult (readBits w 24 21)) s

/-- `GET_VERSION` (R157): `clicinfo[20:13]`. -/
def execGetVersion (s : State) : Host.Outcome State Fault Refusal :=
  readOp .info (fun w => wordResult (readBits w 20 13)) s

/-- `GET_MAX_INTERRUPTS` (R158): `clicinfo[12:0]`. -/
def execGetMaxInterrupts (s : State) : Host.Outcome State Fault Refusal :=
  readOp .info (fun w => wordResult (readBits w 12 0)) s

end Sys2Proof.Machine
end

