-- ==== Sys2Proof/Machine/Interrupt.lean ====
section
/-! DEFINITION. The per-interrupt operations (42_clic_interrupt_ops.md). All but `IS_ACTIVE` touch the control block of the index, which the instance must have (R46, R135). -/

namespace Sys2Proof.Machine

/-- `MASK` (R120): one write of 0 to `enabled`. -/
def execMask (idx : BitVec 12) (s : State) : Host.Outcome State Fault Refusal :=
  writeOp (.en (index idx)) 0x00000000 s

/-- `UNMASK` (R121): one write of 1 to `enabled`. -/
def execUnmask (idx : BitVec 12) (s : State) : Host.Outcome State Fault Refusal :=
  writeOp (.en (index idx)) 0x00000001 s

/-- `IS_ENABLED` (R122): bit 0 of `enabled`. -/
def execIsEnabled (idx : BitVec 12) (s : State) : Host.Outcome State Fault Refusal :=
  readOp (.en (index idx)) (fun w => wordResult (readBits w 0 0)) s

/-- `IS_PENDING` (R123): bit 0 of `pending`. -/
def execIsPending (idx : BitVec 12) (s : State) : Host.Outcome State Fault Refusal :=
  readOp (.pend (index idx)) (fun w => wordResult (readBits w 0 0)) s

/-- `PEND` (R124): one write of 1 to `pending`. -/
def execPend (idx : BitVec 12) (s : State) : Host.Outcome State Fault Refusal :=
  writeOp (.pend (index idx)) 0x00000001 s

/-- `UNPEND` (R125): one write of 0 to `pending`. -/
def execUnpend (idx : BitVec 12) (s : State) : Host.Outcome State Fault Refusal :=
  writeOp (.pend (index idx)) 0x00000000 s

/-- `GET_PRIORITY` (R126): the low byte of `ctl`. -/
def execGetPriority (idx : BitVec 12) (s : State) : Host.Outcome State Fault Refusal :=
  readOp (.ctl (index idx)) (fun w => wordResult (readBits w 7 0)) s

/-- `SET_PRIORITY` (R127): read-modify-write of the low byte of `ctl`. -/
def execSetPriority (idx : BitVec 12) (value : BitVec 8) (s : State) : Host.Outcome State Fault Refusal :=
  updateOp (.setPriority idx value) (.ctl (index idx)) 7 0 (value.setWidth 32) s

/-- `IS_ACTIVE` (R128): compares `TCAUSE[11:0]` with the index; reads no control block, so it is defined for every index
whatever `N_INT` is (R135). -/
def execIsActive (idx : BitVec 12) (s : State) : Host.Outcome State Fault Refusal :=
  .next (s.reply .ok (boolResult ((sampleTcause s).extractLsb' 0 12 == idx)))

/-- `ENABLE_SHV` (R129): read-modify-write of bit 0 of `attr` with 1. -/
def execEnableShv (idx : BitVec 12) (s : State) : Host.Outcome State Fault Refusal :=
  updateOp (.enableShv idx) (.attr (index idx)) 0 0 1 s

/-- `DISABLE_SHV` (R130): read-modify-write of bit 0 of `attr` with 0. -/
def execDisableShv (idx : BitVec 12) (s : State) : Host.Outcome State Fault Refusal :=
  updateOp (.disableShv idx) (.attr (index idx)) 0 0 0 s

/-- `SET_TRIG` (R131): read-modify-write of bits [2:1] of `attr`. -/
def execSetTrig (idx : BitVec 12) (trig : Trigger) (s : State) : Host.Outcome State Fault Refusal :=
  updateOp (.setTrig idx trig) (.attr (index idx)) 2 1 (trig.code.setWidth 32) s

end Sys2Proof.Machine
end

