-- ==== Sys2Proof/Machine/TrapVector.lean ====
section
/-! DEFINITION. The operations of the trap-vector register (44_trap_vector.md). -/

namespace Sys2Proof.Machine

/-- `MTVEC_ADDRESS` (R173). -/
def execMtvecAddress (s : State) : Host.Outcome State Fault Refusal :=
  .next (s.reply .ok (tvAddress s.build (csrRead s)))

/-- `MTVEC_TRAP_MODE` (R174): the mode's code, or `NONE`. -/
def execMtvecTrapMode (s : State) : Host.Outcome State Fault Refusal :=
  match tvTrapMode s.build (csrRead s) with
  | some m => .next (s.reply .ok (modeResult m))
  | none => .next (s.reply .none 0)

/-- `MTVEC_SUB_MODE` (R175): the sub-mode's code, or `NONE`; in a non-CLIC build the operation does not exist and the command
is illegal (R86 (d)). -/
def execMtvecSubMode (s : State) : Host.Outcome State Fault Refusal :=
  if s.build.clicSupport then
    match tvSubMode (csrRead s) with
    | some m => .next (s.reply .ok (subModeResult m))
    | none => .next (s.reply .none 0)
  else .next (replyIllegal s)

/-- `MTVEC_WRITE` (R176): one CSR write of the composed word; the register is not read. A mode that the build lacks makes the
command illegal (R86 (c)). -/
def execMtvecWrite (submode : SubMode) (mode : TrapMode) (s : State) : Host.Outcome State Fault Refusal :=
  if mode.wf s.build.clicSupport then .next ((csrWrite s (tvCompose s.build s.addrA submode mode)).reply .ok 0)
  else .next (replyIllegal s)

end Sys2Proof.Machine
end

