-- ==== Sys2Proof/Machine/Dispatch.lean ====
section
/-! DEFINITION. One arm for each operation: its meaning. -/

namespace Sys2Proof.Machine

/-- The meaning of an operation whose command stands on the port. -/
def exec (i : Instr) (s : State) : Host.Outcome State Fault Refusal :=
  match i with
  | .readBits high low => Sys2Proof.Machine.execReadBits high low s
  | .writeBits high low => Sys2Proof.Machine.execWriteBits high low s
  | .take => Sys2Proof.Machine.execTake s
  | .steal => Sys2Proof.Machine.execSteal s
  | .mask idx => Sys2Proof.Machine.execMask idx s
  | .unmask idx => Sys2Proof.Machine.execUnmask idx s
  | .isEnabled idx => Sys2Proof.Machine.execIsEnabled idx s
  | .isPending idx => Sys2Proof.Machine.execIsPending idx s
  | .pend idx => Sys2Proof.Machine.execPend idx s
  | .unpend idx => Sys2Proof.Machine.execUnpend idx s
  | .getPriority idx => Sys2Proof.Machine.execGetPriority idx s
  | .setPriority idx value => Sys2Proof.Machine.execSetPriority idx value s
  | .isActive idx => Sys2Proof.Machine.execIsActive idx s
  | .enableShv idx => Sys2Proof.Machine.execEnableShv idx s
  | .disableShv idx => Sys2Proof.Machine.execDisableShv idx s
  | .setTrig idx trig => Sys2Proof.Machine.execSetTrig idx trig s
  | .setModeBitWidth => Sys2Proof.Machine.execSetModeBitWidth s
  | .getModeBitWidth => Sys2Proof.Machine.execGetModeBitWidth s
  | .setLevelBitWidth => Sys2Proof.Machine.execSetLevelBitWidth s
  | .getLevelBitWidth => Sys2Proof.Machine.execGetLevelBitWidth s
  | .hasInterruptVectoring => Sys2Proof.Machine.execHasInterruptVectoring s
  | .getNumInt => Sys2Proof.Machine.execGetNumInt s
  | .getPossibleLevelBits => Sys2Proof.Machine.execGetPossibleLevelBits s
  | .getVersion => Sys2Proof.Machine.execGetVersion s
  | .getMaxInterrupts => Sys2Proof.Machine.execGetMaxInterrupts s
  | .mtvecAddress => Sys2Proof.Machine.execMtvecAddress s
  | .mtvecTrapMode => Sys2Proof.Machine.execMtvecTrapMode s
  | .mtvecSubMode => Sys2Proof.Machine.execMtvecSubMode s
  | .mtvecWrite submode mode => Sys2Proof.Machine.execMtvecWrite submode mode s

end Sys2Proof.Machine
end

