-- ==== Sys2Proof/Machine/Fetch.lean ====
section
/-! DEFINITION. What the next step of the total order is (R53, R54, R251): the schedule names the agent; a requester goes on with the operation it has in flight, or issues its next action. -/

namespace Sys2Proof.Machine

/-- What a step is about to do. -/
inductive Fetched where
  /-- A transaction of the operation `i`, whose command stands on the port of `s`. -/
  | run (i : Instr) (s : State)
  /-- Anything else: its outcome. -/
  | done (o : Host.Outcome State Fault Refusal)
deriving Repr

/-- The command of requester `q`, decoded; an illegal one replies `ILLEGAL` and does nothing else (R84, R85). -/
def issue (q : Nat) (c : Command) (s : State) : Fetched :=
  match decode s.build.clicSupport c.cmd with
  | .ok i => .run i (s.present q c)
  | .error _ => .done (.next (replyIllegal (s.present q c)))

/-- The next action of requester `q`, which has nothing in flight (R54). A requester that has finished does nothing. -/
def fetchAction (q : Nat) (s : State) : Fetched :=
  match s.programOf q with
  | [] => .done (.next s)
  | .command c :: rest => issue q c (s.setProgram q rest)
  | .memRead addr n :: rest => .done (memRead q addr n (s.setProgram q rest))
  | .memWrite addr n v :: rest => .done (memWrite addr n v (s.setProgram q rest))
  | .csrRead :: rest => .done (.next (rawCsrRead q (s.setProgram q rest)))
  | .csrWrite v :: rest => .done (.next (csrWrite (s.setProgram q rest) v))

/-- The step of requester `q`: the second transaction of what it has in flight (R25, R55), else its next action. A number that
names no member of `REQUESTERS` has no step and changes nothing (log entry 6). -/
def fetchRequester (q : Nat) (s : State) : Fetched :=
  if q < s.build.requesters then
    match s.inflightOf q with
    | some f => .run f.op (s.present q f.command)
    | none => fetchAction q s
  else .done (.next s)

/-- The next move of the schedule, on a state whose outputs are idle until the step drives them. An empty schedule leaves the
machine as it is: the block waits for commands and never halts (R251; log entry 6). -/
def fetch (s : State) : Fetched :=
  match s.schedule with
  | [] => .done (.next { s with out := none })
  | .requester q :: rest => fetchRequester q { s with schedule := rest, out := none }
  | .tcause v :: rest => .done (.next (envTcause v { s with schedule := rest, out := none }))
  | .pending i flag :: rest => .done (.next (envPending i flag { s with schedule := rest, out := none }))

/-- The state in which the very next step is requester 0 issuing the command `c`: its command list and the schedule begin with
it, and requester 0 has no operation in flight. -/
def placeCommand (c : Command) (s : State) : State :=
  { s with
    programs := RegMap.set [] s.programs 0 (.command c :: s.programOf 0)
    schedule := .requester 0 :: s.schedule
    inflight := RegMap.set none s.inflight 0 none }

end Sys2Proof.Machine
end

