-- ==== Sys2Proof/Machine/Step.lean ====
section
/-! DEFINITION. One step of the machine: one place in the total order of R53. -/

namespace Sys2Proof.Machine

/-- One step: a transaction of an operation, a raw transaction, or a move of the environment (R53). -/
def step (s : State) : Host.Outcome State Fault Refusal :=
  match fetch s with
  | .run i t => exec i t
  | .done o => o

/-- The command word of the low `nbits` bits of `w`, with both data operands 0, as the command that the next step issues
(log entry 5). -/
def State.withFetchWord (s : State) (nbits w : Nat) : State := placeCommand ⟨tableWord nbits w, 0, 0⟩ s

end Sys2Proof.Machine
end

