-- ==== Sys2Proof/Safety.lean ====
section
/-! DEFINITION. The terms that statements use: the invariant of the state, what an operation leaves unchanged, an operation taken whole, and what a run hands out. No step uses them. -/

namespace Sys2Proof.Machine

/-! ## Operations -/

/-- The six operations of two transactions (R240). -/
def twoStep : Instr → Bool
  | .setPriority _ _ | .enableShv _ | .disableShv _ | .setTrig _ _ | .setModeBitWidth | .setLevelBitWidth => true
  | .readBits _ _ | .writeBits _ _ | .take | .steal | .mask _ | .unmask _ | .isEnabled _ | .isPending _ | .pend _
  | .unpend _ | .getPriority _ | .isActive _ | .getModeBitWidth | .getLevelBitWidth | .hasInterruptVectoring
  | .getNumInt | .getPossibleLevelBits | .getVersion | .getMaxInterrupts | .mtvecAddress | .mtvecTrapMode
  | .mtvecSubMode | .mtvecWrite _ _ => false

/-- The control block that an operation touches (R135): none for an operation that touches no control block, `IS_ACTIVE`
among them. -/
def blockOf : Instr → Option (BitVec 12)
  | .mask idx | .unmask idx | .isEnabled idx | .isPending idx | .pend idx | .unpend idx | .getPriority idx
  | .setPriority idx _ | .enableShv idx | .disableShv idx | .setTrig idx _ => some idx
  | .readBits _ _ | .writeBits _ _ | .take | .steal | .isActive _ | .setModeBitWidth | .getModeBitWidth
  | .setLevelBitWidth | .getLevelBitWidth | .hasInterruptVectoring | .getNumInt | .getPossibleLevelBits | .getVersion
  | .getMaxInterrupts | .mtvecAddress | .mtvecTrapMode | .mtvecSubMode | .mtvecWrite _ _ => none

/-- The instance has the control block that the operation touches (R46). -/
def available (b : Build) (i : Instr) : Bool :=
  match blockOf i with
  | some idx => decide (index idx < b.nInt)
  | none => true

/-- The operation taken whole: both transactions of a two-transaction operation with no step of another agent between them,
the one transaction of any other (R20, R25). -/
def wholeOp (i : Instr) (s : State) : Host.Outcome State Fault Refusal :=
  match exec i s with
  | .next t => if (t.inflightOf t.port.requester).isSome then exec i t else .next t
  | .fault f => .fault f
  | .refused r => .refused r

/-- A read-modify-write: the register, the field and the new value of the field. -/
structure Update where
  reg : Reg
  high : Nat
  low : Nat
  value : Word
deriving DecidableEq, Repr

/-- The read-modify-write that an operation is (R127, R129 to R131, R150, R152, R240), given the command on the port. -/
def updateOf (i : Instr) (c : Command) : Option Update :=
  match i with
  | .setPriority idx value => some ⟨.ctl (index idx), 7, 0, value.setWidth 32⟩
  | .enableShv idx => some ⟨.attr (index idx), 0, 0, 1⟩
  | .disableShv idx => some ⟨.attr (index idx), 0, 0, 0⟩
  | .setTrig idx trig => some ⟨.attr (index idx), 2, 1, trig.code.setWidth 32⟩
  | .setModeBitWidth => some ⟨.cfg, 6, 5, c.b⟩
  | .setLevelBitWidth => some ⟨.cfg, 4, 1, c.b⟩
  | .readBits _ _ | .writeBits _ _ | .take | .steal | .mask _ | .unmask _ | .isEnabled _ | .isPending _ | .pend _
  | .unpend _ | .getPriority _ | .isActive _ | .getModeBitWidth | .getLevelBitWidth | .hasInterruptVectoring
  | .getNumInt | .getPossibleLevelBits | .getVersion | .getMaxInterrupts | .mtvecAddress | .mtvecTrapMode
  | .mtvecSubMode | .mtvecWrite _ _ => none

/-- The word is the command word of the operation, in every build that has the operation. -/
def encodedAs (w : Word) (i : Instr) : Prop := ∀ clic, i.wf clic = true → decode clic w = .ok i

/-- `MXLEN` as a number (R5). -/
def mxlenBits : Mxlen → Nat
  | .w32 => 32
  | .w64 => 64

/-! ## The invariant -/

/-- A machine word of MXLEN bits. -/
def fitsM (m : Mxlen) (w : MWord) : Bool := truncM m w == w

/-- An operation in flight is one of two transactions, on a register that the instance has. -/
def inflightOk (b : Build) (f : Option Inflight) : Bool :=
  match f with
  | some f => twoStep f.op && available b f.op && fitsM b.mxlen f.command.a
  | none => true

/-- An output is no wider than its port (R75, R50). -/
def outputOk (m : Mxlen) (o : Option Output) : Bool :=
  match o with
  | some (.reply _ _ result) => fitsM m result
  | some (.memData _ _) => true
  | some (.csrData _ word) => fitsM m word
  | none => true

/-- The register arrays are in canonical form and list only indices that the instance has (R15). -/
abbrev State.registersOk (s : State) : Prop :=
  (RegMap.wf false s.pend ∧ RegMap.below s.build.nInt s.pend) ∧
  (RegMap.wf false s.en ∧ RegMap.below s.build.nInt s.en) ∧
  (RegMap.wf 0 s.attr ∧ RegMap.below s.build.nInt s.attr) ∧
  (RegMap.wf 0 s.ctl ∧ RegMap.below s.build.nInt s.ctl)

/-- The invariant of a model instance: parameters within R5, register arrays canonical, every machine word of MXLEN bits, and
only two-transaction operations in flight (R25), by members of `REQUESTERS`. -/
abbrev State.Inv (s : State) : Prop :=
  s.build.wf ∧ s.registersOk ∧
  (fitsM s.build.mxlen s.mtvec ∧ fitsM s.build.mxlen s.tcause ∧ fitsM s.build.mxlen s.port.command.a) ∧
  (RegMap.wf none s.inflight ∧ RegMap.below s.build.requesters s.inflight ∧
    s.inflight.all (fun e => inflightOk s.build e.2)) ∧
  RegMap.wf [] s.programs ∧ outputOk s.build.mxlen s.out

/-- Reset parameters that are values of their registers: canonical arrays of implemented indices, words of MXLEN bits. -/
abbrev ResetValues.ok (b : Build) (v : ResetValues) : Prop :=
  (State.resetWith b v).registersOk ∧ fitsM b.mxlen v.mtvec ∧ fitsM b.mxlen v.tcause

/-! ## Frames -/

/-- Every byte of the register space outside the `len` bytes at byte offset `off` reads as before. -/
def keepsBytesOutside (off len : Nat) (s t : State) : Prop :=
  ∀ a, (a < off ∨ off + len ≤ a) → t.byteAt a = s.byteAt a

/-- Every byte of the register space reads as before. -/
def keepsBytes (s t : State) : Prop := ∀ a, t.byteAt a = s.byteAt a

/-- Every register of every control block, and `cliccfg`, but `r`, stands as before. -/
def keepsRegistersBut (r : Reg) (s t : State) : Prop := ∀ r', r' ≠ r → t.stored r' = s.stored r'

/-- Every register of the register space stands as before. -/
def keepsRegisters (s t : State) : Prop := ∀ r, t.stored r = s.stored r

/-- What is outside the register space and is written by no operation but those of the gate and `MTVEC_WRITE`: `MTVEC`, `TAKEN`,
the input `TCAUSE`, the parameters; and what issuing belongs to: the port, the command lists and the schedule. That the port's
inputs still stand there afterwards is the model's choice (log entry 27). -/
def keepsOutside (s t : State) : Prop :=
  t.build = s.build ∧ t.mtvec = s.mtvec ∧ t.taken = s.taken ∧ t.tcause = s.tcause ∧ t.port = s.port ∧
  t.programs = s.programs ∧ t.schedule = s.schedule

/-- Nothing of the block changes: no register, nothing in flight, no draw. -/
def keepsBlock (s t : State) : Prop :=
  keepsRegisters s t ∧ keepsBytes s t ∧ keepsOutside s t ∧ t.inflight = s.inflight ∧ t.draws = s.draws

/-- An operation wrote the register `r` and nothing else: neither another register nor what is in flight. -/
def writesOnly (r : Reg) (s t : State) : Prop :=
  keepsRegistersBut r s t ∧ keepsBytesOutside r.offset 4 s t ∧ keepsOutside s t ∧ t.draws = s.draws

/-- What is in flight for each requester but `q` stands as before. -/
def keepsInflightBut (q : Nat) (s t : State) : Prop := ∀ p, p ≠ q → t.inflightOf p = s.inflightOf p

/-- What is in flight for each requester stands as before. -/
def keepsInflight (s t : State) : Prop := ∀ p, t.inflightOf p = s.inflightOf p

/-- The reply that the port's requester got. -/
def replied (s t : State) (status : Status) (result : MWord) : Prop :=
  t.out = some (.reply s.port.requester status result)

/-- In a build with this `CLIC_SUPPORT` the command word `w` is illegal: whoever issues it gets `reply(ILLEGAL, 0)`, and but for
its command list, the port and the schedule nothing changes (R85). -/
def repliesIllegal (clic : Bool) (w : Word) : Prop :=
  ∀ (s : State) (q : Nat) (c : Command) (rest : List Action) (moves : List Move),
    s.build.clicSupport = clic → c.cmd = w → s.schedule = .requester q :: moves → q < s.build.requesters →
    s.inflightOf q = none → s.programOf q = .command c :: rest →
    ∃ t, step s = .next t ∧ t.out = some (.reply q .illegal 0) ∧
      keepsRegisters s t ∧ keepsBytes s t ∧ t.build = s.build ∧ t.mtvec = s.mtvec ∧ t.taken = s.taken ∧
      t.tcause = s.tcause ∧ keepsInflight s t ∧ t.draws = s.draws ∧
      t.schedule = moves ∧ t.programOf q = rest ∧ ∀ p, p ≠ q → t.programOf p = s.programOf p

/-! ## What the next step is -/

/-- The next step is a requester's raw write transaction to the register `r` (R48, R246). -/
def State.writesRaw (s : State) (r : Reg) : Prop :=
  ∃ (q addr n : Nat) (v : Word) (moves : List Move) (rest : List Action), s.schedule = .requester q :: moves ∧
    s.inflightOf q = none ∧ s.programOf q = .memWrite addr n v :: rest ∧ locate s.build addr n = .reg r

/-- The next step is step 2 of the operation `i`: a member of `REQUESTERS` that has it in flight goes on (R25, R240). -/
def State.finishes (s : State) (i : Instr) : Prop :=
  ∃ (q : Nat) (f : Inflight) (moves : List Move), s.schedule = .requester q :: moves ∧ q < s.build.requesters ∧
    s.inflightOf q = some f ∧ f.op = i

/-! ## Runs -/

/-- The operation whose transaction is the next step, with the status it replies in that step: none where the next step runs no
operation or ends without a reply. -/
def State.answers (s : State) : Option (Instr × Status) :=
  match fetch s, step s with
  | .run i _, .next t =>
    match t.out with
    | some (.reply _ status _) => some (i, status)
    | some (.memData _ _) => none
    | some (.csrData _ _) => none
    | none => none
  | .run _ _, .fault _ => none
  | .run _ _, .refused _ => none
  | .done _, _ => none

/-- How many of the next `n` steps of a run satisfy `p`. -/
def countSteps (p : State → Bool) : Nat → State → Nat
  | 0, _ => 0
  | n + 1, s =>
    (if p s then 1 else 0) +
      match step s with
      | .next t => countSteps p n t
      | .fault _ => 0
      | .refused _ => 0

/-- The step replies `OK` to `TAKE`. -/
def takeSucceeds (s : State) : Bool := s.answers == some (.take, .ok)

/-- The step replies `OK` to `TAKE` or `STEAL`: one handle is handed out (R112 (c)). -/
def handsOut (s : State) : Bool := takeSucceeds s || s.answers == some (.steal, .ok)

/-- The step runs `STEAL`. -/
def runsSteal (s : State) : Bool :=
  match fetch s with
  | .run i _ => i == .steal
  | .done _ => false

end Sys2Proof.Machine
end

