-- ==== Sys2Proof/Certificates/Slice0/Obligations.lean ====
section
/-! DEFINITION. The statements about the model, for the provers. -/

open Sys2Proof Sys2Proof.Machine

/-! ## The codec -/

/-- R100: bit `b` of `read_bits(word, high, low)` is bit `low + b` of the word within the width and 0 above it, so that the
result is less than `2^width` and is the word itself at full width. -/
def Obligations.ReadBitsIsTheFieldShiftedDown : Prop :=
  ∀ (word : Word) (high low : Nat), low ≤ high → high ≤ 31 →
    (readBits word high low).toNat = (word.toNat >>> low) % 2 ^ (high - low + 1) ∧
    (readBits word high low).toNat < 2 ^ (high - low + 1) ∧
    (∀ b, (readBits word high low).getLsbD b = (decide (b ≤ high - low) && word.getLsbD (low + b))) ∧
    readBits word 31 0 = word

/-- R101: the mask and or formula over the natural numbers; bit by bit, `value[b-low]` inside the range and `word[b]` outside;
at full width the result is `value`. -/
def Obligations.WriteBitsReplacesTheFieldBitByBit : Prop :=
  ∀ (word value : Word) (high low : Nat), low ≤ high → high ≤ 31 →
    writeBits word high low value =
      (word &&& ~~~(BitVec.ofNat 32 ((2 ^ (high - low + 1) - 1) <<< low))) |||
        ((value <<< low) &&& BitVec.ofNat 32 ((2 ^ (high - low + 1) - 1) <<< low)) ∧
    (∀ b, b < 32 → (writeBits word high low value).getLsbD b =
      if low ≤ b ∧ b ≤ high then value.getLsbD (b - low) else word.getLsbD b) ∧
    writeBits word 31 0 value = value

/-- R104: the laws (a) to (e) of the codec, under its precondition. -/
def Obligations.CodecLaws : Prop :=
  ∀ (word value : Word) (high low : Nat), low ≤ high → high ≤ 31 →
    writeBits word high low (readBits word high low) = word ∧
    (∀ b, b < low ∨ high < b → (writeBits word high low value).getLsbD b = word.getLsbD b) ∧
    (readBits (writeBits word high low value) high low).toNat = value.toNat &&& (2 ^ (high - low + 1) - 1) ∧
    (∀ high' low' : Nat, low' ≤ high' → high' ≤ 31 → (high' < low ∨ high < low') →
      readBits (writeBits word high low value) high' low' = readBits word high' low') ∧
    writeBits (writeBits word high low value) high low value = writeBits word high low value

/-- R102: `READ_BITS` replies the field; for `low > high` it replies `OK` with the draw `any_32`. Nothing of the block changes, and
`A[MXLEN-1:32]` and `B` never reach the result (the result is a function of `A[31:0]`). That the draw is `Config.any32` of the
counter `draws`, which goes up by one, is the model's choice and no rule of the spec: log entry 8. -/
def Obligations.ReadBitsOperation : Prop :=
  ∀ (high low : BitVec 5) (s : State),
    encodedAs (0x01000000#32 ||| (high.setWidth 32 <<< 5) ||| low.setWidth 32) (.readBits high low) ∧
    (low.toNat ≤ high.toNat → ∃ t, exec (.readBits high low) s = .next t ∧
      replied s t .ok ((readBits (s.port.command.a.setWidth 32) high.toNat low.toNat).setWidth 64) ∧ keepsBlock s t) ∧
    (high.toNat < low.toNat → ∃ t, exec (.readBits high low) s = .next t ∧
      replied s t .ok ((Config.any32 s.draws).setWidth 64) ∧ t.draws = s.draws + 1 ∧
      keepsRegisters s t ∧ keepsBytes s t ∧ keepsOutside s t ∧ t.inflight = s.inflight)

/-- R103: `WRITE_BITS` replies the new word and writes no register; for `low > high` it replies `OK` with the draw `any_32`. That
the draw is `Config.any32` of the counter `draws`, which goes up by one, is the model's choice and no rule of the spec: log
entry 8. -/
def Obligations.WriteBitsOperation : Prop :=
  ∀ (high low : BitVec 5) (s : State),
    encodedAs (0x02000000#32 ||| (high.setWidth 32 <<< 5) ||| low.setWidth 32) (.writeBits high low) ∧
    (low.toNat ≤ high.toNat → ∃ t, exec (.writeBits high low) s = .next t ∧
      replied s t .ok
        ((writeBits (s.port.command.a.setWidth 32) high.toNat low.toNat s.port.command.b).setWidth 64) ∧
      keepsBlock s t) ∧
    (high.toNat < low.toNat → ∃ t, exec (.writeBits high low) s = .next t ∧
      replied s t .ok ((Config.any32 s.draws).setWidth 64) ∧ t.draws = s.draws + 1 ∧
      keepsRegisters s t ∧ keepsBytes s t ∧ keepsOutside s t ∧ t.inflight = s.inflight)

/-! ## The gate -/

/-- R110: `TAKE` tests and sets `TAKEN` in one step: `OK` and set from 0, `NONE` and unchanged from 1. -/
def Obligations.TakeIsATestAndSet : Prop :=
  ∀ s : State,
    encodedAs 0x10000000#32 .take ∧
    ∃ t, exec .take s = .next t ∧ t.taken = true ∧
      (s.taken = false → replied s t .ok 0) ∧ (s.taken = true → replied s t .none 0) ∧
      keepsRegisters s t ∧ keepsBytes s t ∧ t.mtvec = s.mtvec ∧ t.tcause = s.tcause ∧ t.build = s.build ∧
      t.inflight = s.inflight ∧ t.draws = s.draws ∧ t.port = s.port ∧ t.programs = s.programs ∧
      t.schedule = s.schedule

/-- R111: `STEAL` sets `TAKEN` and replies `OK` whatever the bit was. -/
def Obligations.StealSetsTheGate : Prop :=
  ∀ s : State,
    encodedAs 0x11000000#32 .steal ∧
    ∃ t, exec .steal s = .next t ∧ t.taken = true ∧ replied s t .ok 0 ∧
      keepsRegisters s t ∧ keepsBytes s t ∧ t.mtvec = s.mtvec ∧ t.tcause = s.tcause ∧ t.build = s.build ∧
      t.inflight = s.inflight ∧ t.draws = s.draws ∧ t.port = s.port ∧ t.programs = s.programs ∧
      t.schedule = s.schedule

/-- R112: (a) no step clears `TAKEN`; (b) in any run at most one `TAKE` replies `OK`; (c) the handles handed out are the `OK`
replies of `TAKE` and `STEAL`, more than one of them only where a `STEAL` is run. -/
def Obligations.TheGateIsAOneShot : Prop :=
  (∀ s t : State, step s = .next t → s.taken = true → t.taken = true) ∧
  (∀ (n : Nat) (s : State), countSteps takeSucceeds n s ≤ 1) ∧
  (∀ (n : Nat) (s : State), 1 < countSteps handsOut n s → 0 < countSteps runsSteal n s)

/-- R114: no operation but `TAKE` and `STEAL` depends on `TAKEN` or writes it. -/
def Obligations.TheGateGuardsNothing : Prop :=
  ∀ (i : Instr) (s : State) (b : Bool), i ≠ .take → i ≠ .steal →
    exec i { s with taken := b } =
      match exec i s with
      | .next t => .next { t with taken := b }
      | .fault f => .fault f
      | .refused r => .refused r

/-! ## The per-interrupt operations -/

/-- R120, R121: `MASK` and `UNMASK` write `E[i]` and nothing else. -/
def Obligations.MaskAndUnmaskWriteTheEnableFlag : Prop :=
  ∀ (idx : BitVec 12) (s : State), idx.toNat < s.build.nInt →
    encodedAs (0x20000000#32 ||| (idx.setWidth 32 <<< 12)) (.mask idx) ∧
    encodedAs (0x21000000#32 ||| (idx.setWidth 32 <<< 12)) (.unmask idx) ∧
    (∃ t, exec (.mask idx) s = .next t ∧ t.enabled idx.toNat = false ∧ replied s t .ok 0 ∧
      writesOnly (.en idx.toNat) s t ∧ t.inflight = s.inflight) ∧
    (∃ t, exec (.unmask idx) s = .next t ∧ t.enabled idx.toNat = true ∧ replied s t .ok 0 ∧
      writesOnly (.en idx.toNat) s t ∧ t.inflight = s.inflight)

/-- R124, R125: `PEND` and `UNPEND` write `P[i]` and nothing else. -/
def Obligations.PendAndUnpendWriteThePendingFlag : Prop :=
  ∀ (idx : BitVec 12) (s : State), idx.toNat < s.build.nInt →
    encodedAs (0x24000000#32 ||| (idx.setWidth 32 <<< 12)) (.pend idx) ∧
    encodedAs (0x25000000#32 ||| (idx.setWidth 32 <<< 12)) (.unpend idx) ∧
    (∃ t, exec (.pend idx) s = .next t ∧ t.pending idx.toNat = true ∧ replied s t .ok 0 ∧
      writesOnly (.pend idx.toNat) s t ∧ t.inflight = s.inflight) ∧
    (∃ t, exec (.unpend idx) s = .next t ∧ t.pending idx.toNat = false ∧ replied s t .ok 0 ∧
      writesOnly (.pend idx.toNat) s t ∧ t.inflight = s.inflight)

/-- R122, R123: `IS_ENABLED` and `IS_PENDING` reply the flag and change nothing; whatever bits [31:1] of the word read are, they
are discarded. -/
def Obligations.FlagReadersReplyTheFlag : Prop :=
  ∀ (idx : BitVec 12) (s : State), idx.toNat < s.build.nInt →
    encodedAs (0x22000000#32 ||| (idx.setWidth 32 <<< 12)) (.isEnabled idx) ∧
    encodedAs (0x23000000#32 ||| (idx.setWidth 32 <<< 12)) (.isPending idx) ∧
    (∃ t, exec (.isEnabled idx) s = .next t ∧ keepsBlock s t ∧
      replied s t .ok (if s.enabled idx.toNat then 1 else 0) ∧
      ∀ u : BitVec 31, replied s t .ok ((readBits (rawWord s (.en idx.toNat) u) 0 0).setWidth 64)) ∧
    (∃ t, exec (.isPending idx) s = .next t ∧ keepsBlock s t ∧
      replied s t .ok (if s.pending idx.toNat then 1 else 0) ∧
      ∀ u : BitVec 31, replied s t .ok ((readBits (rawWord s (.pend idx.toNat) u) 0 0).setWidth 64))

/-- R126: `GET_PRIORITY` replies the low byte of `CTLW[i]` and changes nothing. -/
def Obligations.GetPriorityReadsTheLowByte : Prop :=
  ∀ (idx : BitVec 12) (s : State), idx.toNat < s.build.nInt →
    encodedAs (0x26000000#32 ||| (idx.setWidth 32 <<< 12)) (.getPriority idx) ∧
    ∃ t, exec (.getPriority idx) s = .next t ∧
      replied s t .ok (((s.ctlw idx.toNat).extractLsb' 0 8).setWidth 64) ∧ keepsBlock s t

/-- R128: `IS_ACTIVE` compares the low 12 bits of `TCAUSE` with the index and nothing else, for every index whatever `N_INT`
is; the reply is the same in any state with the same low 12 bits. -/
def Obligations.IsActiveComparesTheCause : Prop :=
  ∀ (idx : BitVec 12) (s : State),
    encodedAs (0x28000000#32 ||| (idx.setWidth 32 <<< 12)) (.isActive idx) ∧
    ∃ t, exec (.isActive idx) s = .next t ∧
      replied s t .ok (if s.tcause.extractLsb' 0 12 = idx then 1 else 0) ∧ keepsBlock s t

/-- R25, R55: step 1 of each of the six two-transaction operations (`SET_PRIORITY`, `ENABLE_SHV`, `DISABLE_SHV`, `SET_TRIG`,
`SET_MODE_BIT_WIDTH`, `SET_LEVEL_BIT_WIDTH`) reads the word and holds it in flight; no register changes and no reply is
given. -/
def Obligations.UpdatesReadFirst : Prop :=
  ∀ (i : Instr) (u : Update) (s : State), updateOf i s.port.command = some u → u.reg.implemented s.build = true →
    s.inflightOf s.port.requester = none →
    ∃ t, exec i s = .next t ∧
      t.inflightOf s.port.requester = some ⟨i, s.port.command, s.stored u.reg⟩ ∧
      keepsInflightBut s.port.requester s t ∧ t.out = s.out ∧
      keepsRegisters s t ∧ keepsBytes s t ∧ keepsOutside s t ∧ t.draws = s.draws

/-- R240: step 2 of each of the six two-transaction operations (`SET_PRIORITY`, `ENABLE_SHV`, `DISABLE_SHV`, `SET_TRIG`,
`SET_MODE_BIT_WIDTH`, `SET_LEVEL_BIT_WIDTH`), in any state at all: the word is
`write_bits(w1, hi, lo, v)` of the word `w1` read in step 1, whatever was written in between; nothing else is written. -/
def Obligations.UpdatesWriteTheWordReadFirst : Prop :=
  ∀ (i : Instr) (u : Update) (f : Inflight) (s : State),
    updateOf i s.port.command = some u → u.reg.implemented s.build = true →
    s.inflightOf s.port.requester = some f → f.op = i →
    ∃ t, exec i s = .next t ∧
      t.stored u.reg = writeBits f.word u.high u.low u.value ∧
      replied s t .ok 0 ∧ t.inflightOf s.port.requester = none ∧
      keepsInflightBut s.port.requester s t ∧ writesOnly u.reg s t

/-- R127: `SET_PRIORITY`, its two transactions together, writes `CTLW[i][7:0]` and keeps `CTLW[i][31:8]`; where other steps fall
between its two transactions, step 2 writes back `[31:8]` as read in step 1. -/
def Obligations.SetPriorityWritesTheLowByte : Prop :=
  ∀ (idx : BitVec 12) (value : BitVec 8) (s : State), idx.toNat < s.build.nInt →
    encodedAs (0x27000000#32 ||| (idx.setWidth 32 <<< 12) ||| value.setWidth 32) (.setPriority idx value) ∧
    (s.inflightOf s.port.requester = none → ∃ t, wholeOp (.setPriority idx value) s = .next t ∧
      (t.ctlw idx.toNat).extractLsb' 0 8 = value ∧
      (t.ctlw idx.toNat).extractLsb' 8 24 = (s.ctlw idx.toNat).extractLsb' 8 24 ∧
      replied s t .ok 0 ∧ writesOnly (.ctl idx.toNat) s t ∧ keepsInflight s t) ∧
    (∀ f, s.inflightOf s.port.requester = some f → f.op = .setPriority idx value →
      ∃ t, exec (.setPriority idx value) s = .next t ∧
        (t.ctlw idx.toNat).extractLsb' 0 8 = value ∧
        (t.ctlw idx.toNat).extractLsb' 8 24 = f.word.extractLsb' 8 24 ∧
        replied s t .ok 0 ∧ writesOnly (.ctl idx.toNat) s t)

/-- R129, R130: `ENABLE_SHV` and `DISABLE_SHV`, their two transactions together, write `ATTRW[i][0]` and keep `ATTRW[i][31:1]`. -/
def Obligations.ShvOperationsWriteBitZero : Prop :=
  ∀ (idx : BitVec 12) (s : State), idx.toNat < s.build.nInt → s.inflightOf s.port.requester = none →
    encodedAs (0x29000000#32 ||| (idx.setWidth 32 <<< 12)) (.enableShv idx) ∧
    encodedAs (0x2A000000#32 ||| (idx.setWidth 32 <<< 12)) (.disableShv idx) ∧
    (∃ t, wholeOp (.enableShv idx) s = .next t ∧
      (t.attrw idx.toNat).getLsbD 0 = true ∧
      (t.attrw idx.toNat).extractLsb' 1 31 = (s.attrw idx.toNat).extractLsb' 1 31 ∧
      replied s t .ok 0 ∧ writesOnly (.attr idx.toNat) s t ∧ keepsInflight s t) ∧
    (∃ t, wholeOp (.disableShv idx) s = .next t ∧
      (t.attrw idx.toNat).getLsbD 0 = false ∧
      (t.attrw idx.toNat).extractLsb' 1 31 = (s.attrw idx.toNat).extractLsb' 1 31 ∧
      replied s t .ok 0 ∧ writesOnly (.attr idx.toNat) s t ∧ keepsInflight s t)

/-- R131: `SET_TRIG`, its two transactions together, writes `ATTRW[i][2:1]` and keeps bit 0 and bits [31:3]. -/
def Obligations.SetTrigWritesTheTriggerField : Prop :=
  ∀ (idx : BitVec 12) (trig : Trigger) (s : State), idx.toNat < s.build.nInt →
    s.inflightOf s.port.requester = none →
    encodedAs (0x2B000000#32 ||| (idx.setWidth 32 <<< 12) ||| trig.code.setWidth 32) (.setTrig idx trig) ∧
    ∃ t, wholeOp (.setTrig idx trig) s = .next t ∧
      (t.attrw idx.toNat).extractLsb' 1 2 = trig.code ∧
      (t.attrw idx.toNat).getLsbD 0 = (s.attrw idx.toNat).getLsbD 0 ∧
      (t.attrw idx.toNat).extractLsb' 3 29 = (s.attrw idx.toNat).extractLsb' 3 29 ∧
      replied s t .ok 0 ∧ writesOnly (.attr idx.toNat) s t ∧ keepsInflight s t

/-- R138: (a) and (b) a flag written is the flag read next; (c) a priority written is the priority read next; (d) a writer of
`attr` leaves the other fields of the word unchanged; (e) no operation of the family on index `i` changes any state of
another index, nor `CFGW`, `MTVEC` or `TAKEN`. -/
def Obligations.PerInterruptFamilyProperties : Prop :=
  (∀ (idx : BitVec 12) (s t : State), idx.toNat < s.build.nInt →
    (exec (.mask idx) s = .next t → ∃ u, exec (.isEnabled idx) t = .next u ∧ replied t u .ok 0) ∧
    (exec (.unmask idx) s = .next t → ∃ u, exec (.isEnabled idx) t = .next u ∧ replied t u .ok 1) ∧
    (exec (.pend idx) s = .next t → ∃ u, exec (.isPending idx) t = .next u ∧ replied t u .ok 1) ∧
    (exec (.unpend idx) s = .next t → ∃ u, exec (.isPending idx) t = .next u ∧ replied t u .ok 0)) ∧
  (∀ (idx : BitVec 12) (value : BitVec 8) (s t : State), s.inflightOf s.port.requester = none →
    wholeOp (.setPriority idx value) s = .next t →
    (∃ u, exec (.getPriority idx) t = .next u ∧ replied t u .ok (value.setWidth 64)) ∧
    (t.ctlw idx.toNat).extractLsb' 8 24 = (s.ctlw idx.toNat).extractLsb' 8 24) ∧
  (∀ (idx : BitVec 12) (trig : Trigger) (s t : State), s.inflightOf s.port.requester = none →
    (wholeOp (.setTrig idx trig) s = .next t → (t.attrw idx.toNat).getLsbD 0 = (s.attrw idx.toNat).getLsbD 0 ∧
      (t.attrw idx.toNat).extractLsb' 3 29 = (s.attrw idx.toNat).extractLsb' 3 29) ∧
    (wholeOp (.enableShv idx) s = .next t ∨ wholeOp (.disableShv idx) s = .next t →
      (t.attrw idx.toNat).extractLsb' 1 31 = (s.attrw idx.toNat).extractLsb' 1 31)) ∧
  (∀ (i : Instr) (idx : BitVec 12) (j : Nat) (s t : State), (blockOf i = some idx ∨ i = .isActive idx) →
    j ≠ idx.toNat → exec i s = .next t →
    t.pending j = s.pending j ∧ t.enabled j = s.enabled j ∧ t.attrw j = s.attrw j ∧ t.ctlw j = s.ctlw j ∧
    t.cfgw = s.cfgw ∧ t.mtvec = s.mtvec ∧ t.taken = s.taken)

/-- R46: an operation on a control block at or above `N_INT`, and a raw transaction to one of its words, is refused; with
`N_INT = 4096` no operation is. -/
def Obligations.UnimplementedBlocksAreRefused : Prop :=
  (∀ (i : Instr) (idx : BitVec 12) (s : State), blockOf i = some idx →
    (s.build.nInt ≤ idx.toNat → exec i s = .refused .unimplementedBlock) ∧
    (s.build.nInt = 4096 → ∃ t, exec i s = .next t)) ∧
  (∀ (i off q : Nat) (v : Word) (s : State), s.build.wf = true → s.build.nInt ≤ i → i < 4096 →
    off ∈ [0, 4, 8, 12] →
    memRead q (s.build.clicBase + 0x1000 + 16 * i + off) 4 s = .refused .unimplementedBlock ∧
    memWrite (s.build.clicBase + 0x1000 + 16 * i + off) 4 v s = .refused .unimplementedBlock)

/-! ## The global operations -/

/-- R150: `SET_MODE_BIT_WIDTH`, its two transactions together, writes `CFGW[6:5]` with the low two bits of `B`. -/
def Obligations.SetModeBitWidthWritesItsField : Prop :=
  ∀ s : State, s.inflightOf s.port.requester = none →
    encodedAs 0x30000000#32 .setModeBitWidth ∧
    ∃ t, wholeOp .setModeBitWidth s = .next t ∧
      t.cfgw.extractLsb' 5 2 = s.port.command.b.extractLsb' 0 2 ∧
      t.cfgw.extractLsb' 0 5 = s.cfgw.extractLsb' 0 5 ∧ t.cfgw.extractLsb' 7 25 = s.cfgw.extractLsb' 7 25 ∧
      replied s t .ok 0 ∧ writesOnly .cfg s t ∧ keepsInflight s t

/-- R152: `SET_LEVEL_BIT_WIDTH`, its two transactions together, writes `CFGW[4:1]` with the low four bits of `B`. -/
def Obligations.SetLevelBitWidthWritesItsField : Prop :=
  ∀ s : State, s.inflightOf s.port.requester = none →
    encodedAs 0x32000000#32 .setLevelBitWidth ∧
    ∃ t, wholeOp .setLevelBitWidth s = .next t ∧
      t.cfgw.extractLsb' 1 4 = s.port.command.b.extractLsb' 0 4 ∧
      t.cfgw.getLsbD 0 = s.cfgw.getLsbD 0 ∧ t.cfgw.extractLsb' 5 27 = s.cfgw.extractLsb' 5 27 ∧
      replied s t .ok 0 ∧ writesOnly .cfg s t ∧ keepsInflight s t

/-- R151, R153, R154: the readers of `cliccfg` reply their field and change nothing; the vectoring flag is inverted. -/
def Obligations.ConfigurationReadersReplyTheirField : Prop :=
  ∀ s : State,
    encodedAs 0x31000000#32 .getModeBitWidth ∧ encodedAs 0x33000000#32 .getLevelBitWidth ∧
    encodedAs 0x34000000#32 .hasInterruptVectoring ∧
    (∃ t, exec .getModeBitWidth s = .next t ∧ replied s t .ok ((s.cfgw.extractLsb' 5 2).setWidth 64) ∧
      keepsBlock s t) ∧
    (∃ t, exec .getLevelBitWidth s = .next t ∧ replied s t .ok ((s.cfgw.extractLsb' 1 4).setWidth 64) ∧
      keepsBlock s t) ∧
    (∃ t, exec .hasInterruptVectoring s = .next t ∧
      replied s t .ok (if s.cfgw.getLsbD 0 = false then 1 else 0) ∧ keepsBlock s t)

/-- R155 to R158: the readers of `clicinfo` reply their field of the constant and change nothing. -/
def Obligations.InformationReadersReplyTheirField : Prop :=
  ∀ s : State,
    encodedAs 0x35000000#32 .getNumInt ∧ encodedAs 0x36000000#32 .getPossibleLevelBits ∧
    encodedAs 0x37000000#32 .getVersion ∧ encodedAs 0x38000000#32 .getMaxInterrupts ∧
    (∃ t, exec .getNumInt s = .next t ∧ replied s t .ok ((s.build.clicinfo.extractLsb' 25 6).setWidth 64) ∧
      keepsBlock s t) ∧
    (∃ t, exec .getPossibleLevelBits s = .next t ∧
      replied s t .ok ((s.build.clicinfo.extractLsb' 21 4).setWidth 64) ∧ keepsBlock s t) ∧
    (∃ t, exec .getVersion s = .next t ∧ replied s t .ok ((s.build.clicinfo.extractLsb' 13 8).setWidth 64) ∧
      keepsBlock s t) ∧
    (∃ t, exec .getMaxInterrupts s = .next t ∧
      replied s t .ok ((s.build.clicinfo.extractLsb' 0 13).setWidth 64) ∧ keepsBlock s t)

/-- R159: a width written is the width read next, modulo its field, and the other readers of `cliccfg` reply what they replied
before; no operation taken whole changes `CFGW[31:7]`; the readers of `clicinfo` reply the same after any step. -/
def Obligations.GlobalFamilyProperties : Prop :=
  (∀ s t : State, s.inflightOf s.port.requester = none → wholeOp .setModeBitWidth s = .next t →
    (∃ u, exec .getModeBitWidth t = .next u ∧
      replied t u .ok (BitVec.ofNat 64 (s.port.command.b.toNat % 4))) ∧
    (∀ i ∈ [Instr.getLevelBitWidth, .hasInterruptVectoring], ∃ u v : State, exec i s = .next u ∧ exec i t = .next v ∧
      u.out = v.out)) ∧
  (∀ s t : State, s.inflightOf s.port.requester = none → wholeOp .setLevelBitWidth s = .next t →
    (∃ u, exec .getLevelBitWidth t = .next u ∧
      replied t u .ok (BitVec.ofNat 64 (s.port.command.b.toNat % 16))) ∧
    (∀ i ∈ [Instr.getModeBitWidth, .hasInterruptVectoring], ∃ u v : State, exec i s = .next u ∧ exec i t = .next v ∧
      u.out = v.out)) ∧
  (∀ (i : Instr) (s t : State), s.inflightOf s.port.requester = none → wholeOp i s = .next t →
    t.cfgw.extractLsb' 7 25 = s.cfgw.extractLsb' 7 25) ∧
  (∀ s t : State, step s = .next t →
    ∀ i ∈ [Instr.getNumInt, .getPossibleLevelBits, .getVersion, .getMaxInterrupts], ∃ (st : Status) (x : MWord) (u v : State),
      exec i s = .next u ∧ exec i t = .next v ∧ replied s u st x ∧ replied t v st x)

/-! ## The trap-vector register -/

/-- R170: the base address is the word with the low 6 bits (CLIC build) or 2 bits (non-CLIC build) masked, whatever the mode
field holds. -/
def Obligations.TrapVectorAddressMasksTheLowBits : Prop :=
  ∀ (b : Build) (w : MWord) (k : Nat),
    (tvAddress b w).getLsbD k =
      (decide ((if b.clicSupport then 6 else 2) ≤ k ∧ k < mxlenBits b.mxlen) && w.getLsbD k)

/-- R177: the composed word is the arithmetic sum modulo `2^MXLEN`. -/
def Obligations.TrapVectorComposeIsASum : Prop :=
  ∀ (b : Build) (addr : MWord) (submode : SubMode) (mode : TrapMode), addr.toNat < 2 ^ mxlenBits b.mxlen →
    (tvCompose b addr submode mode).toNat =
      (if b.clicSupport then addr.toNat + submode.code.toNat * 4 + mode.code.toNat else addr.toNat + mode.code.toNat)
        % 2 ^ mxlenBits b.mxlen

/-- R178: for an aligned address and a legal mode the decoders give back what was composed, and the sum is the bitwise or. -/
def Obligations.TrapVectorRoundTrip : Prop :=
  ∀ (b : Build) (addr : MWord) (mode : TrapMode), addr.toNat < 2 ^ mxlenBits b.mxlen →
    addr.toNat % (if b.clicSupport then 64 else 4) = 0 → mode.wf b.clicSupport = true →
    tvAddress b (tvCompose b addr .default mode) = addr ∧
    tvTrapMode b (tvCompose b addr .default mode) = some mode ∧
    (b.clicSupport = true → tvSubMode (tvCompose b addr .default mode) = some .default) ∧
    tvCompose b addr .default mode = addr ||| mode.code.setWidth 64

/-- R173: `MTVEC_ADDRESS` replies the base address of the register and changes nothing. -/
def Obligations.MtvecAddressRepliesTheBase : Prop :=
  ∀ s : State,
    encodedAs 0x40000000#32 .mtvecAddress ∧
    ∃ (t : State) (x : MWord), exec .mtvecAddress s = .next t ∧ replied s t .ok x ∧
      (∀ k, x.getLsbD k =
        (decide ((if s.build.clicSupport then 6 else 2) ≤ k ∧ k < mxlenBits s.build.mxlen) && s.mtvec.getLsbD k)) ∧
      keepsBlock s t

/-- R174: `MTVEC_TRAP_MODE` replies the mode's code or `NONE` by bits [1:0] alone. -/
def Obligations.MtvecTrapModeDecodesTwoBits : Prop :=
  ∀ s : State,
    encodedAs 0x41000000#32 .mtvecTrapMode ∧
    ∃ t, exec .mtvecTrapMode s = .next t ∧ keepsBlock s t ∧
      (s.mtvec.extractLsb' 0 2 = 0 → replied s t .ok 0) ∧
      (s.mtvec.extractLsb' 0 2 = 1 → replied s t .ok 1) ∧
      (s.mtvec.extractLsb' 0 2 = 2 → replied s t .none 0) ∧
      (s.mtvec.extractLsb' 0 2 = 3 → s.build.clicSupport = true → replied s t .ok 3) ∧
      (s.mtvec.extractLsb' 0 2 = 3 → s.build.clicSupport = false → replied s t .none 0)

/-- R175: `MTVEC_SUB_MODE` replies 0 or `NONE` by bits [5:2] alone in a CLIC build, and `ILLEGAL` in a non-CLIC build. -/
def Obligations.MtvecSubModeDecodesFourBits : Prop :=
  ∀ s : State,
    encodedAs 0x42000000#32 .mtvecSubMode ∧
    (s.build.clicSupport = true → ∃ t, exec .mtvecSubMode s = .next t ∧ keepsBlock s t ∧
      (s.mtvec.extractLsb' 2 4 = 0 → replied s t .ok 0) ∧ (s.mtvec.extractLsb' 2 4 ≠ 0 → replied s t .none 0)) ∧
    (s.build.clicSupport = false → ∃ t, exec .mtvecSubMode s = .next t ∧ keepsBlock s t ∧ replied s t .illegal 0)

/-- R176: `MTVEC_WRITE` stores the sum of `A` and the codes, modulo `2^MXLEN`, aligned or not, and nothing else; a mode that the
build lacks makes the command illegal. -/
def Obligations.MtvecWriteStoresTheSum : Prop :=
  ∀ (submode : SubMode) (mode : TrapMode) (s : State),
    encodedAs (0x43000000#32 ||| (submode.code.setWidth 32 <<< 2) ||| mode.code.setWidth 32)
      (.mtvecWrite submode mode) ∧
    (mode.wf s.build.clicSupport = true → ∃ t, exec (.mtvecWrite submode mode) s = .next t ∧
      t.mtvec.toNat = (s.port.command.a.toNat + submode.code.toNat * 4 + mode.code.toNat) % 2 ^ mxlenBits s.build.mxlen ∧
      replied s t .ok 0 ∧ keepsRegisters s t ∧ keepsBytes s t ∧ t.build = s.build ∧ t.taken = s.taken ∧
      t.tcause = s.tcause ∧ t.inflight = s.inflight ∧ t.draws = s.draws ∧ t.port = s.port ∧
      t.programs = s.programs ∧ t.schedule = s.schedule) ∧
    (mode.wf s.build.clicSupport = false → ∃ t, exec (.mtvecWrite submode mode) s = .next t ∧
      replied s t .illegal 0 ∧ keepsBlock s t)

/-! ## Encodings -/

/-- R84: decoding is total and exact: a word decodes to an operation exactly when it is the command word that the encoder
writes for that operation and the build has the operation; so decoding an encoded operation gives it back, no two
operations share a word, and no bit of a word is dropped. -/
def Obligations.DecodeIsTheInverseOfEncode : Prop :=
  ∀ (clic : Bool) (w : Word) (i : Instr), decode clic w = .ok i ↔ (encode i = w ∧ i.wf clic = true)

/-- R85: the reserved operation codes and the must-be-zero bits of each format: the word decodes to no operation, and a command
with it replies `(ILLEGAL, 0)` and changes nothing. -/
def Obligations.ReservedEncodingsAreIllegal : Prop :=
  ∀ (clic : Bool) (w : Word) (opc : Nat), opc = (w.extractLsb' 24 8).toNat →
    ((opc = 0x00 ∨ (0x03 ≤ opc ∧ opc ≤ 0x0F) ∨ (0x12 ≤ opc ∧ opc ≤ 0x1F) ∨ (0x2C ≤ opc ∧ opc ≤ 0x2F) ∨
        (0x39 ≤ opc ∧ opc ≤ 0x3F) ∨ (0x44 ≤ opc ∧ opc ≤ 0xFF)) ∨
      (((0x10 ≤ opc ∧ opc ≤ 0x11) ∨ (0x30 ≤ opc ∧ opc ≤ 0x38) ∨ (0x40 ≤ opc ∧ opc ≤ 0x42)) ∧
        w.extractLsb' 0 24 ≠ 0) ∨
      ((0x01 ≤ opc ∧ opc ≤ 0x02) ∧ w.extractLsb' 10 14 ≠ 0) ∨
      (opc = 0x43 ∧ w.extractLsb' 6 18 ≠ 0) ∨
      (((0x20 ≤ opc ∧ opc ≤ 0x26) ∨ (0x28 ≤ opc ∧ opc ≤ 0x2A)) ∧ w.extractLsb' 0 12 ≠ 0) ∨
      (opc = 0x27 ∧ w.extractLsb' 8 4 ≠ 0) ∨
      (opc = 0x2B ∧ w.extractLsb' 2 10 ≠ 0)) →
    (∀ i, decode clic w ≠ .ok i) ∧ repliesIllegal clic w

/-- R86: the operand values with no meaning, (a) to (d), are illegal. -/
def Obligations.OperandValuesWithNoMeaningAreIllegal : Prop :=
  ∀ (clic : Bool) (w : Word),
    ((w.extractLsb' 24 8 = 0x43#8 ∧ w.extractLsb' 0 2 = 2#2) ∨
      (w.extractLsb' 24 8 = 0x43#8 ∧ w.extractLsb' 2 4 ≠ 0#4) ∨
      (clic = false ∧ w.extractLsb' 24 8 = 0x43#8 ∧ w.extractLsb' 0 2 = 3#2) ∨
      (clic = false ∧ w.extractLsb' 24 8 = 0x42#8)) →
    (∀ i, decode clic w ≠ .ok i) ∧ repliesIllegal clic w

/-- Words written out from R76 and R83, one of each format and family, decode to the operations they stand for. -/
def Obligations.WrittenOutWordsDecode : Prop :=
  decode true 0x010001E8#32 = .ok (.readBits 15 8) ∧
  decode true 0x10000000#32 = .ok .take ∧
  decode true 0x27007080#32 = .ok (.setPriority 7 0x80) ∧
  decode true 0x2B005003#32 = .ok (.setTrig 5 .edgeNegative) ∧
  decode true 0x38000000#32 = .ok .getMaxInterrupts ∧
  decode true 0x43000003#32 = .ok (.mtvecWrite .default .clic)

/-! ## The step -/

/-- A step runs the decoded command: when the schedule names requester `q`, which has nothing in flight and whose next action is
a command whose word decodes to `i`, the step is `exec i` at the state with the schedule and the command list moved on, the
outputs idle and the command on the port. -/
def Obligations.StepRunsTheDecodedCommand : Prop :=
  ∀ (s : State) (q : Nat) (c : Command) (rest : List Action) (moves : List Move) (i : Instr),
    s.schedule = .requester q :: moves → q < s.build.requesters → s.inflightOf q = none →
    s.programOf q = .command c :: rest → decode s.build.clicSupport c.cmd = .ok i →
    step s = exec i ((({ s with schedule := moves, out := none } : State).setProgram q rest).present q c)

/-- R25, R54: the step of a requester with an operation in flight is that operation's next transaction, with the operands it
was issued with; its command list waits. -/
def Obligations.StepGoesOnWithTheOperationInFlight : Prop :=
  ∀ (s : State) (q : Nat) (f : Inflight) (moves : List Move),
    s.schedule = .requester q :: moves → q < s.build.requesters → s.inflightOf q = some f →
    step s = exec f.op (({ s with schedule := moves, out := none } : State).present q f.command)

/-- R25, R55: with no other step between them, the two steps of a two-transaction operation make the operation taken whole, in
every state: the collapsed step that R25 allows is refined by the two transactions. -/
def Obligations.TwoStepsMakeTheWholeOperation : Prop :=
  ∀ (s : State) (q : Nat) (c : Command) (rest : List Action) (moves : List Move) (i : Instr),
    s.schedule = .requester q :: .requester q :: moves → q < s.build.requesters → s.inflightOf q = none →
    s.programOf q = .command c :: rest → decode s.build.clicSupport c.cmd = .ok i → twoStep i = true →
    available s.build i = true →
    ∃ t, Host.Core.run Sys2Proof.core 2 s = .next t ∧
      wholeOp i ((({ s with schedule := moves, out := none } : State).setProgram q rest).present q c) = .next t

/-- A requester's raw transaction is one step. -/
def Obligations.StepPerformsRawTransactions : Prop :=
  ∀ (s : State) (q : Nat) (a : Action) (rest : List Action) (moves : List Move) (u : State),
    s.schedule = .requester q :: moves → q < s.build.requesters → s.inflightOf q = none →
    s.programOf q = a :: rest →
    u = ({ s with schedule := moves, out := none } : State).setProgram q rest →
    (∀ addr n, a = .memRead addr n → step s = memRead q addr n u) ∧
    (∀ addr n v, a = .memWrite addr n v → step s = memWrite addr n v u) ∧
    (a = .csrRead → step s = .next (rawCsrRead q u)) ∧
    (∀ v, a = .csrWrite v → step s = .next (csrWrite u v))

/-- R25: what requester `q` has in flight is private: a step that is not `q`'s neither changes it nor depends on it. -/
def Obligations.InflightIsPrivate : Prop :=
  ∀ (s t : State) (q : Nat) (f : Option Inflight), (∀ moves, s.schedule ≠ .requester q :: moves) → step s = .next t →
    t.inflightOf q = s.inflightOf q ∧
    ∃ u, step (s.setInflight q f) = .next u ∧ u.inflightOf q = f ∧ keepsInflightBut q t u ∧
      keepsRegisters t u ∧ keepsOutside t u ∧ u.out = t.out ∧ u.draws = t.draws

/-- The model's choice (log entry 6, and entry 27 for the inputs of the command port): with an empty schedule a step changes
nothing but that the outputs are idle. -/
def Obligations.NothingScheduledNothingHappens : Prop :=
  ∀ s : State, s.schedule = [] →
    ∃ t, step s = .next t ∧ t.out = none ∧ t.schedule = [] ∧ keepsBlock s t

/-- R24, R27: the moves of the environment. `TCAUSE` takes any MXLEN-bit value; under `HW_PEND` the interrupt source writes `P[i]`
of an implemented block and nothing else. The move of an interrupt source that the instance lacks changes nothing of the
block: that clause is the model's choice (log entry 7). -/
def Obligations.EnvironmentMoves : Prop :=
  ∀ (s : State) (moves : List Move),
    (∀ v, s.schedule = .tcause v :: moves → ∃ t, step s = .next t ∧
      (t.tcause.toNat = v.toNat % 2 ^ mxlenBits s.build.mxlen) ∧ t.schedule = moves ∧
      keepsRegisters s t ∧ keepsBytes s t ∧ t.mtvec = s.mtvec ∧ t.taken = s.taken ∧ t.inflight = s.inflight ∧
      t.build = s.build ∧ t.programs = s.programs ∧ t.draws = s.draws) ∧
    (∀ i b, s.schedule = .pending i b :: moves → s.build.hwPend = true → i < s.build.nInt → ∃ t, step s = .next t ∧
      t.pending i = b ∧ t.schedule = moves ∧
      keepsRegistersBut (.pend i) s t ∧ keepsBytesOutside (Reg.pend i).offset 4 s t ∧ t.mtvec = s.mtvec ∧
      t.taken = s.taken ∧ t.tcause = s.tcause ∧ t.inflight = s.inflight ∧ t.build = s.build ∧
      t.programs = s.programs ∧ t.draws = s.draws) ∧
    (∀ i b, s.schedule = .pending i b :: moves → (s.build.hwPend = false ∨ s.build.nInt ≤ i) → ∃ t, step s = .next t ∧
      t.schedule = moves ∧ keepsRegisters s t ∧ keepsBytes s t ∧ t.mtvec = s.mtvec ∧ t.taken = s.taken ∧
      t.tcause = s.tcause ∧ t.inflight = s.inflight)

/-! ## The ports -/

/-- R44: the register at each byte address of the layout, and no other, for the 4-byte transactions of R42. -/
def Obligations.AddressMap : Prop :=
  ∀ b : Build, b.wf = true →
    locate b (b.clicBase + 0x0000) 4 = .reg .cfg ∧
    locate b (b.clicBase + 0x0004) 4 = .reg .info ∧
    (∀ off, 8 ≤ off → off < 0x1000 → off % 4 = 0 → locate b (b.clicBase + off) 4 = .refused .reservedPadding) ∧
    (∀ i, i < b.nInt →
      locate b (b.clicBase + 0x1000 + 16 * i + 0) 4 = .reg (.pend i) ∧
      locate b (b.clicBase + 0x1000 + 16 * i + 4) 4 = .reg (.en i) ∧
      locate b (b.clicBase + 0x1000 + 16 * i + 8) 4 = .reg (.attr i) ∧
      locate b (b.clicBase + 0x1000 + 16 * i + 12) 4 = .reg (.ctl i)) ∧
    (∀ addr n r, locate b addr n = .reg r → n = 4 ∧ addr = r.addr b ∧ r.implemented b = true)

/-- R47: what a raw read returns at each register; nothing of the block changes. That the draw `any_31` is `Config.any31` of the
counter `draws` is the model's choice and no rule of the spec (log entry 8), and so is that the command port's inputs stand as
before (log entry 27). -/
def Obligations.RawReadReturnsTheRegister : Prop :=
  ∀ (q : Nat) (r : Reg) (s : State), s.build.wf = true → r.implemented s.build = true →
    ∃ (t : State) (w : Word), memRead q (r.addr s.build) 4 s = .next t ∧ t.out = some (.memData q w) ∧
      (r = .cfg → w = s.cfgw) ∧
      (r = .info → w = s.build.clicinfo) ∧
      (∀ i, r = .pend i → w.getLsbD 0 = s.pending i ∧ w.extractLsb' 1 31 = Config.any31 s.draws) ∧
      (∀ i, r = .en i → w.getLsbD 0 = s.enabled i ∧ w.extractLsb' 1 31 = Config.any31 s.draws) ∧
      (∀ i, r = .attr i → w = s.attrw i) ∧
      (∀ i, r = .ctl i → w = s.ctlw i) ∧
      keepsRegisters s t ∧ keepsBytes s t ∧ keepsOutside s t ∧ t.inflight = s.inflight

/-- R48: what a raw write changes at each register, and nothing else. That the command port's inputs stand as before is the
model's choice (log entry 27). -/
def Obligations.RawWriteChangesTheRegister : Prop :=
  ∀ (r : Reg) (v : Word) (s : State), s.build.wf = true → r.implemented s.build = true →
    ∃ t, memWrite (r.addr s.build) 4 v s = .next t ∧
      (r = .cfg → t.cfgw = v) ∧
      (r = .info → t = s) ∧
      (∀ i, r = .pend i → t.pending i = v.getLsbD 0) ∧
      (∀ i, r = .en i → t.enabled i = v.getLsbD 0) ∧
      (∀ i, r = .attr i → t.attrw i = v) ∧
      (∀ i, r = .ctl i → t.ctlw i = v) ∧
      writesOnly r s t ∧ t.inflight = s.inflight ∧ t.out = s.out

/-- R42, R45: a transaction of another width, or at an address that is no multiple of 4, is refused, and so is a transaction to
the reserved padding. -/
def Obligations.TransactionsWithNoMeaningAreRefused : Prop :=
  (∀ (q addr n : Nat) (v : Word) (s : State), (n ≠ 4 ∨ addr % 4 ≠ 0) →
    memRead q addr n s = .refused .badTransaction ∧ memWrite addr n v s = .refused .badTransaction) ∧
  (∀ (q off : Nat) (v : Word) (s : State), s.build.wf = true → 8 ≤ off → off < 0x1000 → off % 4 = 0 →
    memRead q (s.build.clicBase + off) 4 s = .refused .reservedPadding ∧
    memWrite (s.build.clicBase + off) 4 v s = .refused .reservedPadding)

/-- Outside the register space of R40 there is no register: the SYST window is refused (U24), any other address faults. The two
stops are the model's choice (log entry 11). -/
def Obligations.OutsideTheRegisterSpace : Prop :=
  ∀ (q addr : Nat) (v : Word) (s : State), addr % 4 = 0 →
    (addr < s.build.clicBase ∨ s.build.clicBase + 0x11000 ≤ addr) →
    (s.build.systBase ≤ addr ∧ addr < s.build.systBase + 0x28 →
      memRead q addr 4 s = .refused .systRegister ∧ memWrite addr 4 v s = .refused .systRegister) ∧
    (¬ (s.build.systBase ≤ addr ∧ addr < s.build.systBase + 0x28) →
      memRead q addr 4 s = .fault .noSuchAddress ∧ memWrite addr 4 v s = .fault .noSuchAddress)

/-- R50: `CsrRead(MTVEC)` returns the MXLEN-bit word and `CsrWrite(MTVEC, v)` sets all of it; neither has any other effect.
That the command port's inputs stand as before is the model's choice (log entry 27). -/
def Obligations.CsrPortReadsAndWritesMtvec : Prop :=
  ∀ (q : Nat) (v : MWord) (s : State),
    (∃ x : MWord, (rawCsrRead q s).out = some (.csrData q x) ∧ x.toNat = s.mtvec.toNat % 2 ^ mxlenBits s.build.mxlen) ∧
    keepsBlock s (rawCsrRead q s) ∧
    (csrWrite s v).mtvec.toNat = v.toNat % 2 ^ mxlenBits s.build.mxlen ∧
    keepsRegisters s (csrWrite s v) ∧ keepsBytes s (csrWrite s v) ∧
    csrWrite s v = { s with mtvec := (csrWrite s v).mtvec }

/-! ## The whole machine -/

/-- R30: the state after reset, for every instance and every value of the `RESET_*` parameters. -/
def Obligations.ResetPutsTheStateAtItsParameters : Prop :=
  ∀ (b : Build) (v : ResetValues), ∃ s, s = State.resetWith b v ∧
    s.taken = false ∧ s.cfgw = v.cfgw ∧ s.mtvec = v.mtvec ∧ s.tcause = v.tcause ∧
    (∀ i, s.pending i = RegMap.get false v.pend i ∧ s.enabled i = RegMap.get false v.en i ∧
      s.attrw i = RegMap.get 0 v.attr i ∧ s.ctlw i = RegMap.get 0 v.ctl i) ∧
    (∀ q, s.inflightOf q = none) ∧ s.stored .info = b.clicinfo

/-- The invariant holds after reset, for every instance within R5 and every value of the `RESET_*` parameters, and for
`State.reset`, whose register values and instance are the model's choice (log entries 1 and 2). -/
def Obligations.ResetEstablishesTheInvariant : Prop :=
  (∀ (b : Build) (v : ResetValues), b.wf = true → v.ok b → (State.resetWith b v).Inv) ∧ State.reset.Inv

/-- Every step keeps the invariant: parameters within R5, register arrays canonical and of implemented indices, machine words of
MXLEN bits, only two-transaction operations in flight, outputs no wider than their port. -/
def Obligations.EveryStepKeepsTheInvariant : Prop :=
  ∀ s t : State, s.Inv → step s = .next t → t.Inv

/-- R6, R14: no step changes a parameter, `CLIC_SUPPORT` and `CLICINFO_VALUE` among them. -/
def Obligations.NoStepChangesTheParameters : Prop :=
  ∀ s t : State, step s = .next t → t.build = s.build ∧ t.stored .info = s.stored .info

/-- R200: no operation raises an exception: the only stop of an operation is the refusal of a control block that the instance
lacks, and no operation faults. -/
def Obligations.OperationsStopOnlyOnMissingBlocks : Prop :=
  ∀ (i : Instr) (s : State),
    (∀ f, exec i s ≠ .fault f) ∧
    (∀ r, exec i s = .refused r → r = .unimplementedBlock ∧ available s.build i = false) ∧
    (available s.build i = true → ∃ t, exec i s = .next t)

/-- R250: every operation terminates after at most two transactions, with a reply: taken whole it answers a next state in which
its requester has nothing in flight and an answer stands on the outputs. -/
def Obligations.EveryOperationEndsWithinTwoTransactions : Prop :=
  ∀ (i : Instr) (s : State), available s.build i = true → s.inflightOf s.port.requester = none →
    ∃ (t : State) (st : Status) (x : MWord), wholeOp i s = .next t ∧ t.inflightOf s.port.requester = none ∧
      replied s t st x

/-- R88: the status codes, of which 3 is never produced; `NONE` and `ILLEGAL` come with result 0; `NONE` is the answer of `TAKE`,
`MTVEC_TRAP_MODE` and `MTVEC_SUB_MODE` alone, and a well-formed operation is never answered `ILLEGAL`. -/
def Obligations.StatusOfAReply : Prop :=
  (Status.ok.code = 0 ∧ Status.none.code = 1 ∧ Status.illegal.code = 2 ∧ ∀ st : Status, st.code ≠ 3) ∧
  (∀ (i : Instr) (s t : State) (q : Nat) (st : Status) (x : MWord), s.out = none → exec i s = .next t →
    t.out = some (.reply q st x) →
    q = s.port.requester ∧ (st ≠ .ok → x = 0) ∧
    (st = .none → i = .take ∨ i = .mtvecTrapMode ∨ i = .mtvecSubMode) ∧
    (st = .illegal → i.wf s.build.clicSupport = false))

/-- R27: in the isolated block (`HW_PEND` false) a step changes `P[j]` only by running `PEND` or `UNPEND` on `j` or by a raw write to
`PEND(j)`. -/
def Obligations.PendingChangesOnlyByItsWriters : Prop :=
  ∀ (s t : State) (j : Nat), s.build.hwPend = false → step s = .next t → t.pending j ≠ s.pending j →
    (∃ (idx : BitVec 12) (u : State), j = idx.toNat ∧ (fetch s = .run (.pend idx) u ∨ fetch s = .run (.unpend idx) u)) ∨
    (∃ (q addr n : Nat) (v : Word) (moves : List Move) (rest : List Action), s.schedule = .requester q :: moves ∧
      s.inflightOf q = none ∧ s.programOf q = .memWrite addr n v :: rest ∧ locate s.build addr n = .reg (.pend j))

/-- R13, R17, R18, R19, R21, R23, R24: every register but `P[j]`, and the input `TCAUSE`, is changed by its writers alone. A step
changes `CFGW` only as step 2 of `SET_MODE_BIT_WIDTH` or `SET_LEVEL_BIT_WIDTH` or by a raw write to `cliccfg`; `E[j]` only by running
`MASK` or `UNMASK` on `j` or by a raw write to `EN(j)`; `ATTRW[j]` only as step 2 of `ENABLE_SHV`, `DISABLE_SHV` or `SET_TRIG` on `j` or
by a raw write to `ATTR(j)`; `CTLW[j]` only as step 2 of `SET_PRIORITY` on `j` or by a raw write to `CTL(j)`; `MTVEC` only by running
`MTVEC_WRITE` or by a raw `CsrWrite`; `TAKEN` only by running `TAKE` or `STEAL`; `TCAUSE` only by the environment's move. -/
def Obligations.OnlyTheirWritersChangeTheOtherRegisters : Prop :=
  ∀ s t : State, step s = .next t →
    (t.cfgw ≠ s.cfgw → s.finishes .setModeBitWidth ∨ s.finishes .setLevelBitWidth ∨ s.writesRaw .cfg) ∧
    (∀ j, t.enabled j ≠ s.enabled j →
      (∃ (idx : BitVec 12) (u : State), j = idx.toNat ∧ (fetch s = .run (.mask idx) u ∨ fetch s = .run (.unmask idx) u)) ∨
      s.writesRaw (.en j)) ∧
    (∀ j, t.attrw j ≠ s.attrw j →
      (∃ idx : BitVec 12, j = idx.toNat ∧
        (s.finishes (.enableShv idx) ∨ s.finishes (.disableShv idx) ∨ ∃ trig, s.finishes (.setTrig idx trig))) ∨
      s.writesRaw (.attr j)) ∧
    (∀ j, t.ctlw j ≠ s.ctlw j →
      (∃ idx : BitVec 12, j = idx.toNat ∧ ∃ value, s.finishes (.setPriority idx value)) ∨ s.writesRaw (.ctl j)) ∧
    (t.mtvec ≠ s.mtvec →
      (∃ (sub : SubMode) (mode : TrapMode) (u : State), fetch s = .run (.mtvecWrite sub mode) u) ∨
      (∃ (q : Nat) (v : MWord) (moves : List Move) (rest : List Action), s.schedule = .requester q :: moves ∧
        s.inflightOf q = none ∧ s.programOf q = .csrWrite v :: rest)) ∧
    (t.taken ≠ s.taken → ∃ u, fetch s = .run .take u ∨ fetch s = .run .steal u) ∧
    (t.tcause ≠ s.tcause → ∃ v moves, s.schedule = .tcause v :: moves)

/-- R20: field isolation. An operation taken whole changes at most the one register that it writes: every other register of
the register space, `MTVEC` (but for `MTVEC_WRITE`) and `TAKEN` (but for `TAKE` and `STEAL`) stand as before, and of a
register that it updates every bit outside the field stands as before; what is in flight, the parameters and the input
`TCAUSE` stand as before. -/
def Obligations.FieldIsolation : Prop :=
  ∀ (i : Instr) (s t : State), s.inflightOf s.port.requester = none → wholeOp i s = .next t →
    (∀ u, updateOf i s.port.command = some u → keepsRegistersBut u.reg s t ∧
      ∀ b, b < u.low ∨ u.high < b → (t.stored u.reg).getLsbD b = (s.stored u.reg).getLsbD b) ∧
    (∀ idx, i = .mask idx ∨ i = .unmask idx → keepsRegistersBut (.en idx.toNat) s t) ∧
    (∀ idx, i = .pend idx ∨ i = .unpend idx → keepsRegistersBut (.pend idx.toNat) s t) ∧
    (updateOf i s.port.command = none → (∀ idx, i ≠ .mask idx ∧ i ≠ .unmask idx ∧ i ≠ .pend idx ∧ i ≠ .unpend idx) →
      keepsRegisters s t) ∧
    ((∀ sub mode, i ≠ .mtvecWrite sub mode) → t.mtvec = s.mtvec) ∧
    (i ≠ .take → i ≠ .steal → t.taken = s.taken) ∧
    keepsInflight s t ∧ t.build = s.build ∧ t.tcause = s.tcause
end

