-- ==== Sys2Proof/Laws/RegMap.lean ====
section
/-! SUPPORT. The laws of a register array: what a read after a write gives, and that a write keeps the canonical form. -/

namespace Sys2Proof.Machine

variable {V : Type}

@[simp] theorem RegMap.get_nil (d : V) (k : Nat) : RegMap.get d [] k = d := rfl

theorem RegMap.get_erase_same (d : V) (m : List (Nat × V)) (k : Nat) : RegMap.get d (RegMap.erase m k) k = d := by
  induction m with
  | nil => rfl
  | cons e rest ih =>
    obtain ⟨k', v⟩ := e
    by_cases h : k' = k <;> simp [RegMap.erase, RegMap.get, h, ih]

theorem RegMap.get_erase_other (d : V) (m : List (Nat × V)) {k j : Nat} (hj : j ≠ k) :
    RegMap.get d (RegMap.erase m k) j = RegMap.get d m j := by
  induction m with
  | nil => rfl
  | cons e rest ih =>
    obtain ⟨k', v⟩ := e
    by_cases h : k' = k
    · subst h
      simp [RegMap.erase, RegMap.get, ih, Ne.symm hj]
    · simp [RegMap.erase, RegMap.get, h, ih]

theorem RegMap.get_insert_same (d : V) (m : List (Nat × V)) (k : Nat) (v : V)
    (h : RegMap.get v m k = v) : RegMap.get d (RegMap.insert m k v) k = v := by
  induction m with
  | nil => simp [RegMap.insert, RegMap.get]
  | cons e rest ih =>
    obtain ⟨k', v'⟩ := e
    by_cases hk : k < k'
    · simp [RegMap.insert, RegMap.get, hk]
    · by_cases he : k' = k
      · simp only [RegMap.get, he, if_true] at h
        simp [RegMap.insert, RegMap.get, he, h]
      · simp only [RegMap.get, he, if_false] at h
        simp [RegMap.insert, RegMap.get, hk, he, ih h]

theorem RegMap.get_insert_other (d : V) (m : List (Nat × V)) {k j : Nat} (v : V) (hj : j ≠ k) :
    RegMap.get d (RegMap.insert m k v) j = RegMap.get d m j := by
  induction m with
  | nil => simp [RegMap.insert, RegMap.get, Ne.symm hj]
  | cons e rest ih =>
    obtain ⟨k', v'⟩ := e
    by_cases hk : k < k'
    · simp [RegMap.insert, RegMap.get, hk, Ne.symm hj]
    · simp [RegMap.insert, RegMap.get, hk, ih]

variable [DecidableEq V]

/-- A read after a write to the same index gives the value written. -/
@[simp] theorem RegMap.get_set_same (d : V) (m : List (Nat × V)) (k : Nat) (v : V) :
    RegMap.get d (RegMap.set d m k v) k = v := by
  by_cases h : v = d
  · simp [RegMap.set, h, RegMap.get_erase_same]
  · simp [RegMap.set, h, RegMap.get_insert_same d _ k v (RegMap.get_erase_same v m k)]

/-- A write leaves every other index alone. -/
theorem RegMap.get_set_other (d : V) (m : List (Nat × V)) {k j : Nat} (v : V) (hj : j ≠ k) :
    RegMap.get d (RegMap.set d m k v) j = RegMap.get d m j := by
  by_cases h : v = d
  · simp [RegMap.set, h, RegMap.get_erase_other d m hj]
  · simp [RegMap.set, h, RegMap.get_insert_other d _ v hj, RegMap.get_erase_other d m hj]

/-- Both read laws at once. -/
theorem RegMap.get_set (d : V) (m : List (Nat × V)) (k j : Nat) (v : V) :
    RegMap.get d (RegMap.set d m k v) j = if j = k then v else RegMap.get d m j := by
  by_cases h : j = k
  · simp [h]
  · simp [h, RegMap.get_set_other d m v h]

omit [DecidableEq V] in
theorem RegMap.all_erase (p : Nat × V → Bool) (m : List (Nat × V)) (k : Nat) (h : m.all p) :
    (RegMap.erase m k).all p := by
  induction m with
  | nil => rfl
  | cons e rest ih =>
    obtain ⟨k', v⟩ := e
    by_cases hk : k' = k <;> simp_all [RegMap.erase]

omit [DecidableEq V] in
theorem RegMap.all_insert (p : Nat × V → Bool) (m : List (Nat × V)) (k : Nat) (v : V) (h : m.all p)
    (hv : p (k, v)) : (RegMap.insert m k v).all p := by
  induction m with
  | nil => simpa [RegMap.insert] using hv
  | cons e rest ih =>
    obtain ⟨k', v'⟩ := e
    rw [List.all_cons, Bool.and_eq_true] at h
    by_cases hk : k < k'
    · simp only [RegMap.insert, hk, if_true, List.all_cons, Bool.and_eq_true]
      exact ⟨hv, h.1, h.2⟩
    · simp only [RegMap.insert, hk, if_false, List.all_cons, Bool.and_eq_true]
      exact ⟨h.1, ih h.2⟩

/-- A property of every entry is kept by a write whose entry has it. -/
theorem RegMap.all_set (p : Nat × V → Bool) (d : V) (m : List (Nat × V)) (k : Nat) (v : V) (h : m.all p)
    (hv : p (k, v)) : (RegMap.set d m k v).all p := by
  unfold RegMap.set
  split
  · exact RegMap.all_erase p m k h
  · exact RegMap.all_insert p _ k v (RegMap.all_erase p m k h) hv

/-- A write below the bound keeps every index below it. -/
theorem RegMap.below_set (d : V) (m : List (Nat × V)) (n k : Nat) (v : V) (h : RegMap.below n m) (hk : k < n) :
    RegMap.below n (RegMap.set d m k v) :=
  RegMap.all_set _ d m k v h (by simpa using hk)

theorem RegMap.wf_erase (d : V) (m : List (Nat × V)) (k : Nat) (h : RegMap.wf d m) :
    RegMap.wf d (RegMap.erase m k) := by
  induction m with
  | nil => rfl
  | cons e rest ih =>
    obtain ⟨k', v⟩ := e
    simp only [RegMap.wf, Bool.and_eq_true, decide_eq_true_eq] at h
    by_cases hk : k' = k
    · simpa [RegMap.erase, hk] using ih h.2
    · simp only [RegMap.erase, hk, if_false, RegMap.wf, Bool.and_eq_true, decide_eq_true_eq]
      exact ⟨⟨h.1.1, RegMap.all_erase _ rest k h.1.2⟩, ih h.2⟩

omit [DecidableEq V] in
theorem RegMap.above_trans {k k' : Nat} (m : List (Nat × V)) (hk : k < k') (h : RegMap.above k' m) :
    RegMap.above k m := by
  simp only [RegMap.above, List.all_eq_true, decide_eq_true_eq] at h ⊢
  exact fun e he => Nat.lt_trans hk (h e he)

theorem RegMap.wf_insert (d : V) (m : List (Nat × V)) (k : Nat) (v : V) (h : RegMap.wf d m) (hv : v ≠ d)
    (hk : m.all (fun e => decide (e.1 ≠ k))) : RegMap.wf d (RegMap.insert m k v) := by
  induction m with
  | nil => simp [RegMap.insert, RegMap.wf, RegMap.above, hv]
  | cons e rest ih =>
    obtain ⟨k', v'⟩ := e
    have hw := h
    simp only [RegMap.wf, Bool.and_eq_true, decide_eq_true_eq] at h
    simp only [List.all_cons, Bool.and_eq_true, decide_eq_true_eq] at hk
    by_cases hlt : k < k'
    · simp only [RegMap.insert, hlt, if_true]
      simp only [RegMap.wf, Bool.and_eq_true, decide_eq_true_eq]
      refine ⟨⟨hv, ?_⟩, ⟨h.1.1, h.1.2⟩, h.2⟩
      have := RegMap.above_trans rest hlt h.1.2
      simpa [RegMap.above, hlt] using this
    · simp only [RegMap.insert, hlt, if_false, RegMap.wf, Bool.and_eq_true, decide_eq_true_eq]
      refine ⟨⟨h.1.1, RegMap.all_insert _ rest k v h.1.2 ?_⟩, ih h.2 hk.2⟩
      simpa using Nat.lt_of_le_of_ne (Nat.le_of_not_lt hlt) hk.1

omit [DecidableEq V] in
theorem RegMap.erase_all_ne (m : List (Nat × V)) (k : Nat) :
    (RegMap.erase m k).all (fun e => decide (e.1 ≠ k)) := by
  induction m with
  | nil => rfl
  | cons e rest ih =>
    obtain ⟨k', v⟩ := e
    by_cases hk : k' = k
    · simpa [RegMap.erase, hk] using ih
    · simpa [RegMap.erase, hk] using ih

/-- Every write keeps the canonical form. -/
theorem RegMap.wf_set (d : V) (m : List (Nat × V)) (k : Nat) (v : V) (h : RegMap.wf d m) :
    RegMap.wf d (RegMap.set d m k v) := by
  unfold RegMap.set
  split
  · exact RegMap.wf_erase d m k h
  · exact RegMap.wf_insert d _ k v (RegMap.wf_erase d m k h) ‹_› (RegMap.erase_all_ne m k)

end Sys2Proof.Machine
end

