-- ==== Sys2Proof/Laws/State.lean ====
section
/-! SUPPORT. One lemma for each field and each update of the state, so that no proof unfolds a record update. -/

namespace Sys2Proof.Machine

variable (s : State)

/-! ## State.reply -/

@[simp] theorem State.reply_build (st : Status) (x : MWord) : (s.reply st x).build = s.build := rfl
@[simp] theorem State.reply_cfgw (st : Status) (x : MWord) : (s.reply st x).cfgw = s.cfgw := rfl
@[simp] theorem State.reply_pend (st : Status) (x : MWord) : (s.reply st x).pend = s.pend := rfl
@[simp] theorem State.reply_en (st : Status) (x : MWord) : (s.reply st x).en = s.en := rfl
@[simp] theorem State.reply_attr (st : Status) (x : MWord) : (s.reply st x).attr = s.attr := rfl
@[simp] theorem State.reply_ctl (st : Status) (x : MWord) : (s.reply st x).ctl = s.ctl := rfl
@[simp] theorem State.reply_mtvec (st : Status) (x : MWord) : (s.reply st x).mtvec = s.mtvec := rfl
@[simp] theorem State.reply_taken (st : Status) (x : MWord) : (s.reply st x).taken = s.taken := rfl
@[simp] theorem State.reply_inflight (st : Status) (x : MWord) : (s.reply st x).inflight = s.inflight := rfl
@[simp] theorem State.reply_tcause (st : Status) (x : MWord) : (s.reply st x).tcause = s.tcause := rfl
@[simp] theorem State.reply_port (st : Status) (x : MWord) : (s.reply st x).port = s.port := rfl
@[simp] theorem State.reply_programs (st : Status) (x : MWord) : (s.reply st x).programs = s.programs := rfl
@[simp] theorem State.reply_schedule (st : Status) (x : MWord) : (s.reply st x).schedule = s.schedule := rfl
@[simp] theorem State.reply_draws (st : Status) (x : MWord) : (s.reply st x).draws = s.draws := rfl
@[simp] theorem State.reply_pending (st : Status) (x : MWord) (i : Nat) : (s.reply st x).pending i = s.pending i := rfl
@[simp] theorem State.reply_enabled (st : Status) (x : MWord) (i : Nat) : (s.reply st x).enabled i = s.enabled i := rfl
@[simp] theorem State.reply_attrw (st : Status) (x : MWord) (i : Nat) : (s.reply st x).attrw i = s.attrw i := rfl
@[simp] theorem State.reply_ctlw (st : Status) (x : MWord) (i : Nat) : (s.reply st x).ctlw i = s.ctlw i := rfl
@[simp] theorem State.reply_stored (st : Status) (x : MWord) (r : Reg) : (s.reply st x).stored r = s.stored r := by cases r <;> rfl
@[simp] theorem State.reply_inflightOf (st : Status) (x : MWord) (p : Nat) : (s.reply st x).inflightOf p = s.inflightOf p := rfl

/-! ## State.setInflight -/

@[simp] theorem State.setInflight_build (q : Nat) (f : Option Inflight) : (s.setInflight q f).build = s.build := rfl
@[simp] theorem State.setInflight_cfgw (q : Nat) (f : Option Inflight) : (s.setInflight q f).cfgw = s.cfgw := rfl
@[simp] theorem State.setInflight_pend (q : Nat) (f : Option Inflight) : (s.setInflight q f).pend = s.pend := rfl
@[simp] theorem State.setInflight_en (q : Nat) (f : Option Inflight) : (s.setInflight q f).en = s.en := rfl
@[simp] theorem State.setInflight_attr (q : Nat) (f : Option Inflight) : (s.setInflight q f).attr = s.attr := rfl
@[simp] theorem State.setInflight_ctl (q : Nat) (f : Option Inflight) : (s.setInflight q f).ctl = s.ctl := rfl
@[simp] theorem State.setInflight_mtvec (q : Nat) (f : Option Inflight) : (s.setInflight q f).mtvec = s.mtvec := rfl
@[simp] theorem State.setInflight_taken (q : Nat) (f : Option Inflight) : (s.setInflight q f).taken = s.taken := rfl
@[simp] theorem State.setInflight_tcause (q : Nat) (f : Option Inflight) : (s.setInflight q f).tcause = s.tcause := rfl
@[simp] theorem State.setInflight_port (q : Nat) (f : Option Inflight) : (s.setInflight q f).port = s.port := rfl
@[simp] theorem State.setInflight_out (q : Nat) (f : Option Inflight) : (s.setInflight q f).out = s.out := rfl
@[simp] theorem State.setInflight_programs (q : Nat) (f : Option Inflight) : (s.setInflight q f).programs = s.programs := rfl
@[simp] theorem State.setInflight_schedule (q : Nat) (f : Option Inflight) : (s.setInflight q f).schedule = s.schedule := rfl
@[simp] theorem State.setInflight_draws (q : Nat) (f : Option Inflight) : (s.setInflight q f).draws = s.draws := rfl
@[simp] theorem State.setInflight_pending (q : Nat) (f : Option Inflight) (i : Nat) : (s.setInflight q f).pending i = s.pending i := rfl
@[simp] theorem State.setInflight_enabled (q : Nat) (f : Option Inflight) (i : Nat) : (s.setInflight q f).enabled i = s.enabled i := rfl
@[simp] theorem State.setInflight_attrw (q : Nat) (f : Option Inflight) (i : Nat) : (s.setInflight q f).attrw i = s.attrw i := rfl
@[simp] theorem State.setInflight_ctlw (q : Nat) (f : Option Inflight) (i : Nat) : (s.setInflight q f).ctlw i = s.ctlw i := rfl
@[simp] theorem State.setInflight_stored (q : Nat) (f : Option Inflight) (r : Reg) : (s.setInflight q f).stored r = s.stored r := by cases r <;> rfl

/-! ## State.setProgram -/

@[simp] theorem State.setProgram_build (q : Nat) (p : List Action) : (s.setProgram q p).build = s.build := rfl
@[simp] theorem State.setProgram_cfgw (q : Nat) (p : List Action) : (s.setProgram q p).cfgw = s.cfgw := rfl
@[simp] theorem State.setProgram_pend (q : Nat) (p : List Action) : (s.setProgram q p).pend = s.pend := rfl
@[simp] theorem State.setProgram_en (q : Nat) (p : List Action) : (s.setProgram q p).en = s.en := rfl
@[simp] theorem State.setProgram_attr (q : Nat) (p : List Action) : (s.setProgram q p).attr = s.attr := rfl
@[simp] theorem State.setProgram_ctl (q : Nat) (p : List Action) : (s.setProgram q p).ctl = s.ctl := rfl
@[simp] theorem State.setProgram_mtvec (q : Nat) (p : List Action) : (s.setProgram q p).mtvec = s.mtvec := rfl
@[simp] theorem State.setProgram_taken (q : Nat) (p : List Action) : (s.setProgram q p).taken = s.taken := rfl
@[simp] theorem State.setProgram_inflight (q : Nat) (p : List Action) : (s.setProgram q p).inflight = s.inflight := rfl
@[simp] theorem State.setProgram_tcause (q : Nat) (p : List Action) : (s.setProgram q p).tcause = s.tcause := rfl
@[simp] theorem State.setProgram_port (q : Nat) (p : List Action) : (s.setProgram q p).port = s.port := rfl
@[simp] theorem State.setProgram_out (q : Nat) (p : List Action) : (s.setProgram q p).out = s.out := rfl
@[simp] theorem State.setProgram_schedule (q : Nat) (p : List Action) : (s.setProgram q p).schedule = s.schedule := rfl
@[simp] theorem State.setProgram_draws (q : Nat) (p : List Action) : (s.setProgram q p).draws = s.draws := rfl
@[simp] theorem State.setProgram_pending (q : Nat) (p : List Action) (i : Nat) : (s.setProgram q p).pending i = s.pending i := rfl
@[simp] theorem State.setProgram_enabled (q : Nat) (p : List Action) (i : Nat) : (s.setProgram q p).enabled i = s.enabled i := rfl
@[simp] theorem State.setProgram_attrw (q : Nat) (p : List Action) (i : Nat) : (s.setProgram q p).attrw i = s.attrw i := rfl
@[simp] theorem State.setProgram_ctlw (q : Nat) (p : List Action) (i : Nat) : (s.setProgram q p).ctlw i = s.ctlw i := rfl
@[simp] theorem State.setProgram_stored (q : Nat) (p : List Action) (r : Reg) : (s.setProgram q p).stored r = s.stored r := by cases r <;> rfl
@[simp] theorem State.setProgram_inflightOf (q : Nat) (p : List Action) (j : Nat) : (s.setProgram q p).inflightOf j = s.inflightOf j := rfl

/-! ## State.present -/

@[simp] theorem State.present_build (q : Nat) (c : Command) : (s.present q c).build = s.build := rfl
@[simp] theorem State.present_cfgw (q : Nat) (c : Command) : (s.present q c).cfgw = s.cfgw := rfl
@[simp] theorem State.present_pend (q : Nat) (c : Command) : (s.present q c).pend = s.pend := rfl
@[simp] theorem State.present_en (q : Nat) (c : Command) : (s.present q c).en = s.en := rfl
@[simp] theorem State.present_attr (q : Nat) (c : Command) : (s.present q c).attr = s.attr := rfl
@[simp] theorem State.present_ctl (q : Nat) (c : Command) : (s.present q c).ctl = s.ctl := rfl
@[simp] theorem State.present_mtvec (q : Nat) (c : Command) : (s.present q c).mtvec = s.mtvec := rfl
@[simp] theorem State.present_taken (q : Nat) (c : Command) : (s.present q c).taken = s.taken := rfl
@[simp] theorem State.present_inflight (q : Nat) (c : Command) : (s.present q c).inflight = s.inflight := rfl
@[simp] theorem State.present_tcause (q : Nat) (c : Command) : (s.present q c).tcause = s.tcause := rfl
@[simp] theorem State.present_out (q : Nat) (c : Command) : (s.present q c).out = s.out := rfl
@[simp] theorem State.present_programs (q : Nat) (c : Command) : (s.present q c).programs = s.programs := rfl
@[simp] theorem State.present_schedule (q : Nat) (c : Command) : (s.present q c).schedule = s.schedule := rfl
@[simp] theorem State.present_draws (q : Nat) (c : Command) : (s.present q c).draws = s.draws := rfl
@[simp] theorem State.present_pending (q : Nat) (c : Command) (i : Nat) : (s.present q c).pending i = s.pending i := rfl
@[simp] theorem State.present_enabled (q : Nat) (c : Command) (i : Nat) : (s.present q c).enabled i = s.enabled i := rfl
@[simp] theorem State.present_attrw (q : Nat) (c : Command) (i : Nat) : (s.present q c).attrw i = s.attrw i := rfl
@[simp] theorem State.present_ctlw (q : Nat) (c : Command) (i : Nat) : (s.present q c).ctlw i = s.ctlw i := rfl
@[simp] theorem State.present_stored (q : Nat) (c : Command) (r : Reg) : (s.present q c).stored r = s.stored r := by cases r <;> rfl
@[simp] theorem State.present_inflightOf (q : Nat) (c : Command) (p : Nat) : (s.present q c).inflightOf p = s.inflightOf p := rfl

@[simp] theorem State.reply_out (st : Status) (x : MWord) :
    (s.reply st x).out = some (.reply s.port.requester st x) := rfl
@[simp] theorem State.setInflight_inflightOf_same (q : Nat) (f : Option Inflight) :
    (s.setInflight q f).inflightOf q = f := RegMap.get_set_same none s.inflight q f
theorem State.setInflight_inflightOf_other {q p : Nat} (f : Option Inflight) (h : p ≠ q) :
    (s.setInflight q f).inflightOf p = s.inflightOf p := RegMap.get_set_other none s.inflight f h
@[simp] theorem State.setProgram_programOf_same (q : Nat) (p : List Action) :
    (s.setProgram q p).programOf q = p := RegMap.get_set_same [] s.programs q p
theorem State.setProgram_programOf_other {q j : Nat} (p : List Action) (h : j ≠ q) :
    (s.setProgram q p).programOf j = s.programOf j := RegMap.get_set_other [] s.programs p h
@[simp] theorem State.present_port (q : Nat) (c : Command) :
    (s.present q c).port = ⟨q, ⟨c.cmd, truncM s.build.mxlen c.a, c.b⟩⟩ := rfl

/-! ## State.store -/

@[simp] theorem State.store_build (r : Reg) (v : Word) : (s.store r v).build = s.build := by cases r <;> rfl
@[simp] theorem State.store_mtvec (r : Reg) (v : Word) : (s.store r v).mtvec = s.mtvec := by cases r <;> rfl
@[simp] theorem State.store_taken (r : Reg) (v : Word) : (s.store r v).taken = s.taken := by cases r <;> rfl
@[simp] theorem State.store_inflight (r : Reg) (v : Word) : (s.store r v).inflight = s.inflight := by cases r <;> rfl
@[simp] theorem State.store_tcause (r : Reg) (v : Word) : (s.store r v).tcause = s.tcause := by cases r <;> rfl
@[simp] theorem State.store_port (r : Reg) (v : Word) : (s.store r v).port = s.port := by cases r <;> rfl
@[simp] theorem State.store_out (r : Reg) (v : Word) : (s.store r v).out = s.out := by cases r <;> rfl
@[simp] theorem State.store_programs (r : Reg) (v : Word) : (s.store r v).programs = s.programs := by cases r <;> rfl
@[simp] theorem State.store_schedule (r : Reg) (v : Word) : (s.store r v).schedule = s.schedule := by cases r <;> rfl
@[simp] theorem State.store_draws (r : Reg) (v : Word) : (s.store r v).draws = s.draws := by cases r <;> rfl
@[simp] theorem State.store_inflightOf (r : Reg) (v : Word) (q : Nat) :
    (s.store r v).inflightOf q = s.inflightOf q := by cases r <;> rfl

/-! ## The trap-vector register and the environment -/

@[simp] theorem csrWrite_build (v : MWord) : (csrWrite s v).build = s.build := rfl
@[simp] theorem csrWrite_cfgw (v : MWord) : (csrWrite s v).cfgw = s.cfgw := rfl
@[simp] theorem csrWrite_pend (v : MWord) : (csrWrite s v).pend = s.pend := rfl
@[simp] theorem csrWrite_en (v : MWord) : (csrWrite s v).en = s.en := rfl
@[simp] theorem csrWrite_attr (v : MWord) : (csrWrite s v).attr = s.attr := rfl
@[simp] theorem csrWrite_ctl (v : MWord) : (csrWrite s v).ctl = s.ctl := rfl
@[simp] theorem csrWrite_taken (v : MWord) : (csrWrite s v).taken = s.taken := rfl
@[simp] theorem csrWrite_inflight (v : MWord) : (csrWrite s v).inflight = s.inflight := rfl
@[simp] theorem csrWrite_tcause (v : MWord) : (csrWrite s v).tcause = s.tcause := rfl
@[simp] theorem csrWrite_port (v : MWord) : (csrWrite s v).port = s.port := rfl
@[simp] theorem csrWrite_out (v : MWord) : (csrWrite s v).out = s.out := rfl
@[simp] theorem csrWrite_programs (v : MWord) : (csrWrite s v).programs = s.programs := rfl
@[simp] theorem csrWrite_schedule (v : MWord) : (csrWrite s v).schedule = s.schedule := rfl
@[simp] theorem csrWrite_draws (v : MWord) : (csrWrite s v).draws = s.draws := rfl
@[simp] theorem csrWrite_stored (v : MWord) (r : Reg) : (csrWrite s v).stored r = s.stored r := by cases r <;> rfl
@[simp] theorem envTcause_build (v : MWord) : (envTcause v s).build = s.build := rfl
@[simp] theorem envTcause_cfgw (v : MWord) : (envTcause v s).cfgw = s.cfgw := rfl
@[simp] theorem envTcause_pend (v : MWord) : (envTcause v s).pend = s.pend := rfl
@[simp] theorem envTcause_en (v : MWord) : (envTcause v s).en = s.en := rfl
@[simp] theorem envTcause_attr (v : MWord) : (envTcause v s).attr = s.attr := rfl
@[simp] theorem envTcause_ctl (v : MWord) : (envTcause v s).ctl = s.ctl := rfl
@[simp] theorem envTcause_mtvec (v : MWord) : (envTcause v s).mtvec = s.mtvec := rfl
@[simp] theorem envTcause_taken (v : MWord) : (envTcause v s).taken = s.taken := rfl
@[simp] theorem envTcause_inflight (v : MWord) : (envTcause v s).inflight = s.inflight := rfl
@[simp] theorem envTcause_port (v : MWord) : (envTcause v s).port = s.port := rfl
@[simp] theorem envTcause_out (v : MWord) : (envTcause v s).out = s.out := rfl
@[simp] theorem envTcause_programs (v : MWord) : (envTcause v s).programs = s.programs := rfl
@[simp] theorem envTcause_schedule (v : MWord) : (envTcause v s).schedule = s.schedule := rfl
@[simp] theorem envTcause_draws (v : MWord) : (envTcause v s).draws = s.draws := rfl
@[simp] theorem envTcause_stored (v : MWord) (r : Reg) : (envTcause v s).stored r = s.stored r := by cases r <;> rfl
@[simp] theorem csrWrite_mtvec (v : MWord) : (csrWrite s v).mtvec = truncM s.build.mxlen v := rfl
@[simp] theorem envTcause_tcause (v : MWord) : (envTcause v s).tcause = truncM s.build.mxlen v := rfl
@[simp] theorem envPending_build (i : Nat) (b : Bool) : (envPending i b s).build = s.build := by
  unfold envPending; split <;> rfl
@[simp] theorem envPending_cfgw (i : Nat) (b : Bool) : (envPending i b s).cfgw = s.cfgw := by
  unfold envPending; split <;> rfl
@[simp] theorem envPending_en (i : Nat) (b : Bool) : (envPending i b s).en = s.en := by
  unfold envPending; split <;> rfl
@[simp] theorem envPending_attr (i : Nat) (b : Bool) : (envPending i b s).attr = s.attr := by
  unfold envPending; split <;> rfl
@[simp] theorem envPending_ctl (i : Nat) (b : Bool) : (envPending i b s).ctl = s.ctl := by
  unfold envPending; split <;> rfl
@[simp] theorem envPending_mtvec (i : Nat) (b : Bool) : (envPending i b s).mtvec = s.mtvec := by
  unfold envPending; split <;> rfl
@[simp] theorem envPending_taken (i : Nat) (b : Bool) : (envPending i b s).taken = s.taken := by
  unfold envPending; split <;> rfl
@[simp] theorem envPending_inflight (i : Nat) (b : Bool) : (envPending i b s).inflight = s.inflight := by
  unfold envPending; split <;> rfl
@[simp] theorem envPending_tcause (i : Nat) (b : Bool) : (envPending i b s).tcause = s.tcause := by
  unfold envPending; split <;> rfl
@[simp] theorem envPending_port (i : Nat) (b : Bool) : (envPending i b s).port = s.port := by
  unfold envPending; split <;> rfl
@[simp] theorem envPending_out (i : Nat) (b : Bool) : (envPending i b s).out = s.out := by
  unfold envPending; split <;> rfl
@[simp] theorem envPending_programs (i : Nat) (b : Bool) : (envPending i b s).programs = s.programs := by
  unfold envPending; split <;> rfl
@[simp] theorem envPending_schedule (i : Nat) (b : Bool) : (envPending i b s).schedule = s.schedule := by
  unfold envPending; split <;> rfl
@[simp] theorem envPending_draws (i : Nat) (b : Bool) : (envPending i b s).draws = s.draws := by
  unfold envPending; split <;> rfl

end Sys2Proof.Machine
end

