-- ==== Sys2Proof/Laws/Ops.lean ====
section
/-! SUPPORT. For each shared operation, everything it can do, said once: the proofs of a meaning cite these and do not unfold the operation. -/

namespace Sys2Proof.Machine

/-! ## Registers -/

/-- A stored word read back: `pending` and `enabled` keep bit 0, `clicinfo` keeps its constant. -/
def Reg.readBack (r : Reg) (info v : Word) : Word :=
  match r with
  | .cfg => v
  | .info => info
  | .pend _ => flagWord (v.getLsbD 0)
  | .en _ => flagWord (v.getLsbD 0)
  | .attr _ => v
  | .ctl _ => v

theorem stored_store_same (s : State) (r : Reg) (v : Word) :
    (s.store r v).stored r = r.readBack s.build.clicinfo v := by
  cases r <;> simp [State.store, State.stored, Reg.readBack, State.pending, State.enabled, State.attrw, State.ctlw]

theorem stored_store_other (s : State) {r r' : Reg} (v : Word) (h : r' ≠ r) :
    (s.store r v).stored r' = s.stored r' := by
  cases r <;> cases r' <;>
    simp_all [State.store, State.stored, State.pending, State.enabled, State.attrw, State.ctlw, RegMap.get_set]

/-- Read after write, for both cases at once. -/
theorem stored_store (s : State) (r r' : Reg) (v : Word) :
    (s.store r v).stored r' = if r' = r then r.readBack s.build.clicinfo v else s.stored r' := by
  by_cases h : r' = r
  · subst h; simp [stored_store_same]
  · simp [h, stored_store_other s v h]

/-- A register not of the register space that a write cannot reach reads as before, as do all flags and words. -/
theorem enabled_store (s : State) (r : Reg) (v : Word) (j : Nat) :
    (s.store r v).enabled j = if r = .en j then v.getLsbD 0 else s.enabled j := by
  cases r <;> simp [State.store, State.enabled, RegMap.get_set, eq_comm]

theorem pending_store (s : State) (r : Reg) (v : Word) (j : Nat) :
    (s.store r v).pending j = if r = .pend j then v.getLsbD 0 else s.pending j := by
  cases r <;> simp [State.store, State.pending, RegMap.get_set, eq_comm]

theorem attrw_store (s : State) (r : Reg) (v : Word) (j : Nat) :
    (s.store r v).attrw j = if r = .attr j then v else s.attrw j := by
  cases r <;> simp [State.store, State.attrw, RegMap.get_set, eq_comm]

theorem ctlw_store (s : State) (r : Reg) (v : Word) (j : Nat) :
    (s.store r v).ctlw j = if r = .ctl j then v else s.ctlw j := by
  cases r <;> simp [State.store, State.ctlw, RegMap.get_set, eq_comm]

theorem cfgw_store (s : State) (r : Reg) (v : Word) :
    (s.store r v).cfgw = if r = .cfg then v else s.cfgw := by
  cases r <;> simp [State.store]

/-- A read transaction answers the stored word of a register that the instance has. -/
theorem readReg_ok {s : State} {r : Reg} {w : Word} :
    readReg s r = .ok w ↔ r.implemented s.build = true ∧ w = s.stored r := by
  unfold readReg; cases r.implemented s.build <;> simp [eq_comm (a := s.stored r)]

theorem readReg_error {s : State} {r : Reg} {e : Refusal} :
    readReg s r = .error e ↔ r.implemented s.build = false ∧ e = .unimplementedBlock := by
  unfold readReg; cases r.implemented s.build <;> simp [eq_comm (a := Refusal.unimplementedBlock)]

/-- A write transaction stores the word in a register that the instance has. -/
theorem writeReg_ok {s t : State} {r : Reg} {v : Word} :
    writeReg s r v = .ok t ↔ r.implemented s.build = true ∧ t = s.store r v := by
  unfold writeReg; cases r.implemented s.build <;> simp [eq_comm (a := s.store r v)]

theorem writeReg_error {s : State} {r : Reg} {v : Word} {e : Refusal} :
    writeReg s r v = .error e ↔ r.implemented s.build = false ∧ e = .unimplementedBlock := by
  unfold writeReg; cases r.implemented s.build <;> simp [eq_comm (a := Refusal.unimplementedBlock)]

/-! ## The shapes of an operation -/

theorem writeOp_eq (r : Reg) (v : Word) (s : State) :
    writeOp r v s =
      if r.implemented s.build then .next ((s.store r v).reply .ok 0) else .refused .unimplementedBlock := by
  unfold writeOp writeReg; cases r.implemented s.build <;> rfl

theorem readOp_eq (r : Reg) (result : Word → MWord) (s : State) :
    readOp r result s =
      if r.implemented s.build then .next (s.reply .ok (result (s.stored r))) else .refused .unimplementedBlock := by
  unfold readOp readReg; cases r.implemented s.build <;> rfl

theorem beginUpdate_eq (op : Instr) (r : Reg) (s : State) :
    beginUpdate op r s =
      if r.implemented s.build then
        .next (s.setInflight s.port.requester (some ⟨op, s.port.command, s.stored r⟩))
      else .refused .unimplementedBlock := by
  unfold beginUpdate readReg; cases r.implemented s.build <;> rfl

theorem finishUpdate_eq (r : Reg) (high low : Nat) (v word : Word) (s : State) :
    finishUpdate r high low v word s =
      if r.implemented s.build then
        .next (((s.store r (writeBits word high low v)).setInflight s.port.requester none).reply .ok 0)
      else .refused .unimplementedBlock := by
  unfold finishUpdate writeReg; cases r.implemented s.build <;> rfl

/-- A read-modify-write answers a next state in one of two ways: step 1 or step 2. -/
theorem updateOp_next {op : Instr} {r : Reg} {high low : Nat} {v : Word} {s t : State}
    (h : updateOp op r high low v s = .next t) :
    r.implemented s.build = true ∧
    (t = s.setInflight s.port.requester (some ⟨op, s.port.command, s.stored r⟩) ∨
     ∃ f, s.inflightOf s.port.requester = some f ∧ f.op = op ∧
       t = ((s.store r (writeBits f.word high low v)).setInflight s.port.requester none).reply .ok 0) := by
  unfold updateOp at h
  cases hf : s.inflightOf s.port.requester with
  | none =>
    simp only [hf, beginUpdate_eq] at h
    split at h
    · cases h; exact ⟨‹_›, .inl rfl⟩
    · cases h
  | some f =>
    simp only [hf] at h
    split at h
    · rw [finishUpdate_eq] at h
      split at h
      · cases h; exact ⟨‹_›, .inr ⟨f, rfl, ‹_›, rfl⟩⟩
      · cases h
    · rw [beginUpdate_eq] at h
      split at h
      · cases h; exact ⟨‹_›, .inl rfl⟩
      · cases h

/-! ## Machine words -/

@[simp] theorem truncM_truncM (m : Mxlen) (w : MWord) : truncM m (truncM m w) = truncM m w := by
  cases m <;> simp [truncM, BitVec.and_assoc]

/-! ## Raw transactions -/

/-- A raw read answers a next state only at a register, and then changes nothing but the output and the draws. -/
theorem memRead_next {q addr n : Nat} {s t : State} (h : memRead q addr n s = .next t) :
    ∃ r, locate s.build addr n = .reg r ∧
      t = { s with
        out := some (.memData q (rawWord s r (Config.any31 s.draws)))
        draws := if r.openUpper then s.draws + 1 else s.draws } := by
  unfold memRead at h
  split at h
  · cases h; exact ⟨_, ‹_›, rfl⟩
  · cases h
  · cases h

/-- A raw write answers a next state only at a register, and then stores to it. -/
theorem memWrite_next {addr n : Nat} {v : Word} {s t : State} (h : memWrite addr n v s = .next t) :
    ∃ r, locate s.build addr n = .reg r ∧ t = s.store r v := by
  unfold memWrite at h
  split at h
  · cases h; exact ⟨_, ‹_›, rfl⟩
  · cases h
  · cases h

/-- The address decoder answers only registers that the instance has. -/
theorem locate_implemented {b : Build} {addr n : Nat} {r : Reg} (h : locate b addr n = .reg r) :
    r.implemented b = true := by
  unfold locate locateOffset locateBlock at h
  simp only at h
  repeat' split at h
  all_goals first
    | (cases h; first | rfl | exact decide_eq_true (by assumption))
    | cases h

end Sys2Proof.Machine
end

