-- ==== Sys2Proof/Laws/Canonical.lean ====
section
/-! SUPPORT. The canonical form of the register arrays: the reset arrays have it and every operation on registers keeps it. -/

namespace Sys2Proof.Machine

/-- The register arrays after reset are in canonical form. -/
theorem reset_registersOk : State.reset.registersOk := by decide

/-- A write to a register that the instance has keeps the arrays canonical. -/
theorem store_registersOk {s : State} {r : Reg} (v : Word) (hr : r.implemented s.build = true)
    (h : s.registersOk) : (s.store r v).registersOk := by
  obtain ⟨⟨p, p'⟩, ⟨e, e'⟩, ⟨a, a'⟩, c, c'⟩ := h
  cases r with
  | cfg => exact ⟨⟨p, p'⟩, ⟨e, e'⟩, ⟨a, a'⟩, c, c'⟩
  | info => exact ⟨⟨p, p'⟩, ⟨e, e'⟩, ⟨a, a'⟩, c, c'⟩
  | pend i =>
    exact ⟨⟨RegMap.wf_set _ _ _ _ p, RegMap.below_set _ _ _ _ _ p' (of_decide_eq_true hr)⟩, ⟨e, e'⟩, ⟨a, a'⟩, c, c'⟩
  | en i =>
    exact ⟨⟨p, p'⟩, ⟨RegMap.wf_set _ _ _ _ e, RegMap.below_set _ _ _ _ _ e' (of_decide_eq_true hr)⟩, ⟨a, a'⟩, c, c'⟩
  | attr i =>
    exact ⟨⟨p, p'⟩, ⟨e, e'⟩, ⟨RegMap.wf_set _ _ _ _ a, RegMap.below_set _ _ _ _ _ a' (of_decide_eq_true hr)⟩, c, c'⟩
  | ctl i =>
    exact ⟨⟨p, p'⟩, ⟨e, e'⟩, ⟨a, a'⟩, RegMap.wf_set _ _ _ _ c, RegMap.below_set _ _ _ _ _ c' (of_decide_eq_true hr)⟩

/-- A raw write keeps the arrays canonical. -/
theorem memWrite_registersOk {s t : State} {addr n : Nat} {v : Word} (hs : memWrite addr n v s = .next t)
    (h : s.registersOk) : t.registersOk := by
  obtain ⟨r, hr, rfl⟩ := memWrite_next hs
  exact store_registersOk v (locate_implemented hr) h

/-- A raw read keeps the arrays canonical. -/
theorem memRead_registersOk {s t : State} {q addr n : Nat} (hs : memRead q addr n s = .next t)
    (h : s.registersOk) : t.registersOk := by
  obtain ⟨r, -, rfl⟩ := memRead_next hs
  exact h

/-- A move of the interrupt source keeps the arrays canonical. -/
theorem envPending_registersOk {s : State} (i : Nat) (b : Bool) (h : s.registersOk) :
    (envPending i b s).registersOk := by
  unfold envPending
  split
  · obtain ⟨⟨p, p'⟩, rest⟩ := h
    have hi : i < s.build.nInt := by simp_all
    exact ⟨⟨RegMap.wf_set _ _ _ _ p, RegMap.below_set _ _ _ _ _ p' hi⟩, rest⟩
  · exact h

end Sys2Proof.Machine
end

