-- ==== Sys2Proof/Laws/Exec.lean ====
section
/-! SUPPORT. Everything that an operation can do, said once: proofs over all operations cite `exec_next` and `exec_updateOf` and do not unfold a meaning. -/

namespace Sys2Proof.Machine

/-- The low MXLEN bits as a number. -/
theorem truncM_toNat (m : Mxlen) (w : MWord) : (truncM m w).toNat = w.toNat % 2 ^ mxlenBits m := by
  cases m
  · simp only [truncM, mxlenBits, BitVec.toNat_and]
    rw [show (4294967295#64).toNat = 2 ^ 32 - 1 by rfl, Nat.and_two_pow_sub_one_eq_mod]
  · simp only [truncM, mxlenBits]; have := w.isLt; omega

/-- The codec operations: the value within the precondition, a draw outside it. -/
theorem codecOp_le {high low : BitVec 5} (value : Word) (s : State) (h : position low ≤ position high) :
    codecOp high low value s = .next (s.reply .ok (wordResult value)) := if_pos h

theorem codecOp_gt {high low : BitVec 5} (value : Word) (s : State) (h : position high < position low) :
    codecOp high low value s =
      .next (({ s with draws := s.draws + 1 } : State).reply .ok (wordResult (Config.any32 s.draws))) :=
  if_neg (Nat.not_le.2 h)

/-- A two-transaction operation is the shared read-modify-write of its register and field. -/
theorem exec_updateOf {i : Instr} {u : Update} {s : State} (h : updateOf i s.port.command = some u) :
    exec i s = updateOp i u.reg u.high u.low u.value s := by
  cases i <;> simp only [updateOf] at h <;> cases h <;> rfl

/-- What an operation that answers a next state did: it only replied; it ran the gate; it wrote one flag; it took a step of
its read-modify-write; it wrote the trap-vector register; or it was illegal in the build. -/
theorem exec_next {i : Instr} {s t : State} (h : exec i s = .next t) :
    (∃ d st x, t = ({ s with draws := d } : State).reply st x ∧ st ≠ .illegal) ∨
    (∃ st, t = ({ s with taken := true } : State).reply st 0 ∧ (i = .take ∨ i = .steal) ∧
      (st = .none → s.taken = true ∧ i = .take) ∧ st ≠ .illegal) ∨
    (∃ r v, t = (s.store r v).reply .ok 0 ∧ r.implemented s.build = true ∧
      ((∃ idx, r = .en (index idx) ∧ (i = .mask idx ∨ i = .unmask idx)) ∨
       (∃ idx, r = .pend (index idx) ∧ (i = .pend idx ∨ i = .unpend idx)))) ∨
    (∃ u, updateOf i s.port.command = some u ∧ updateOp i u.reg u.high u.low u.value s = .next t) ∨
    (∃ sub mode v, i = .mtvecWrite sub mode ∧ t = (csrWrite s v).reply .ok 0) ∨
    (i.wf s.build.clicSupport = false ∧ t = s.reply .illegal 0) := by
  cases i with
  | readBits | writeBits =>
    simp only [exec, execReadBits, execWriteBits, codecOp] at h
    split at h <;> cases h
    · exact .inl ⟨s.draws, .ok, _, rfl, by simp⟩
    · exact .inl ⟨_, .ok, _, rfl, by simp⟩
  | take =>
    simp only [exec, execTake] at h
    split at h <;> cases h
    · rename_i ht
      exact .inr (.inl ⟨.none, by cases s; simp_all, .inl rfl, fun _ => ⟨ht, rfl⟩, by simp⟩)
    · exact .inr (.inl ⟨.ok, rfl, .inl rfl, by simp, by simp⟩)
  | steal => cases h; exact .inr (.inl ⟨.ok, rfl, .inr rfl, by simp, by simp⟩)
  | mask | unmask | pend | unpend =>
    simp only [exec, execMask, execUnmask, execPend, execUnpend, writeOp_eq] at h
    split at h <;> cases h
    exact .inr (.inr (.inl ⟨_, _, rfl, ‹_›, by simp⟩))
  | isEnabled | isPending | getPriority | getModeBitWidth | getLevelBitWidth | hasInterruptVectoring | getNumInt
  | getPossibleLevelBits | getVersion | getMaxInterrupts =>
    simp only [exec, execIsEnabled, execIsPending, execGetPriority, execGetModeBitWidth, execGetLevelBitWidth,
      execHasInterruptVectoring, execGetNumInt, execGetPossibleLevelBits, execGetVersion, execGetMaxInterrupts,
      readOp_eq] at h
    split at h <;> cases h
    exact .inl ⟨s.draws, .ok, _, rfl, by simp⟩
  | isActive | mtvecAddress => cases h; exact .inl ⟨s.draws, .ok, _, rfl, by simp⟩
  | mtvecTrapMode =>
    simp only [exec, execMtvecTrapMode] at h
    split at h <;> cases h
    · exact .inl ⟨s.draws, .ok, _, rfl, by simp⟩
    · exact .inl ⟨s.draws, .none, _, rfl, by simp⟩
  | mtvecSubMode =>
    simp only [exec, execMtvecSubMode] at h
    split at h
    · split at h <;> cases h
      · exact .inl ⟨s.draws, .ok, _, rfl, by simp⟩
      · exact .inl ⟨s.draws, .none, _, rfl, by simp⟩
    · cases h; exact .inr (.inr (.inr (.inr (.inr ⟨by simp_all [Instr.wf], rfl⟩))))
  | mtvecWrite =>
    simp only [exec, execMtvecWrite] at h
    split at h <;> cases h
    · exact .inr (.inr (.inr (.inr (.inl ⟨_, _, _, rfl, rfl⟩))))
    · exact .inr (.inr (.inr (.inr (.inr ⟨by simp_all [Instr.wf], rfl⟩))))
  | setPriority | setTrig | enableShv | disableShv | setModeBitWidth | setLevelBitWidth =>
    exact .inr (.inr (.inr (.inl ⟨_, rfl, h⟩)))

end Sys2Proof.Machine
end

