-- ==== Sys2Proof/Laws/Frames.lean ====
section
/-! SUPPORT. From what the registers do to what the bytes of the register space do, and the frames of a reply and of a write. -/

namespace Sys2Proof.Machine

/-- The register at a byte offset contains that byte. -/
theorem locateOffset_contains {b : Build} {a : Nat} {r : Reg} (h : locateOffset b a = .reg r) :
    r.offset ≤ a ∧ a < r.offset + 4 := by
  unfold locateOffset locateBlock at h
  simp only at h
  repeat' split at h
  all_goals first
    | (cases h; simp only [Reg.offset]; omega)
    | (cases h; done)
    | skip
  cases h
  simp only [Reg.offset]
  rename_i _ h3 h2 h1
  have : (a - 4096) % 16 / 4 < 4 := by omega
  have : (a - 4096) % 16 / 4 ≠ 0 := h3
  have : (a - 4096) % 16 / 4 ≠ 1 := h2
  have : (a - 4096) % 16 / 4 ≠ 2 := h1
  omega

/-- A byte reads as before where the register that holds it does. -/
theorem byteAt_congr {s t : State} (hb : t.build = s.build) (a : Nat)
    (h : ∀ r, locateOffset s.build a = .reg r → t.stored r = s.stored r) : t.byteAt a = s.byteAt a := by
  unfold State.byteAt
  rw [hb]
  cases hl : locateOffset s.build a with
  | reg r => simp [h r hl]
  | fault f => rfl
  | refused f => rfl

theorem keepsBytes_of_registers {s t : State} (hb : t.build = s.build) (h : keepsRegisters s t) : keepsBytes s t :=
  fun a => byteAt_congr hb a fun r _ => h r

theorem keepsBytesOutside_of_registers {s t : State} {r : Reg} (hb : t.build = s.build) (h : keepsRegistersBut r s t) :
    keepsBytesOutside r.offset 4 s t := by
  intro a ha
  refine byteAt_congr hb a fun r' hr' => h r' ?_
  rintro rfl
  have := locateOffset_contains hr'
  omega

/-- A reply changes nothing of the block. -/
theorem keepsBlock_reply (s : State) (st : Status) (x : MWord) : keepsBlock s (s.reply st x) := by
  have h : keepsRegisters s (s.reply st x) := fun r => by simp
  exact ⟨h, keepsBytes_of_registers rfl h, ⟨rfl, rfl, rfl, rfl, rfl, rfl, rfl⟩, rfl, rfl⟩

/-- A write of one register, with what the operation does beside it, changes no other register. -/
theorem writesOnly_store (s : State) (r : Reg) (v : Word) (st : Status) (x : MWord) :
    writesOnly r s ((s.store r v).reply st x) := by
  have h : keepsRegistersBut r s ((s.store r v).reply st x) := fun r' hr' => by
    simp [stored_store_other s v hr']
  exact ⟨h, keepsBytesOutside_of_registers (by simp) h, by simp [keepsOutside], by simp⟩

theorem writesOnly_store_inflight (s : State) (r : Reg) (v : Word) (q : Nat) (f : Option Inflight) (st : Status)
    (x : MWord) : writesOnly r s (((s.store r v).setInflight q f).reply st x) := by
  have h : keepsRegistersBut r s (((s.store r v).setInflight q f).reply st x) := fun r' hr' => by
    simp [stored_store_other s v hr']
  exact ⟨h, keepsBytesOutside_of_registers (by simp) h, by simp [keepsOutside], by simp⟩

end Sys2Proof.Machine
end

