-- ==== Sys2Proof/Laws/PerInstr.lean ====
section
/-! SUPPORT. The family OpcodeField: in every command word the operation code stands in bits [31:24] (R76). -/

namespace Sys2Proof.Laws.OpcodeField

/-- Bits [31:24] of the command word are the operation code of R83. -/
def Statement (i : Instr) : Prop := (encode i).extractLsb' 24 8 = i.opc

theorem opc_of_encodeZ (opc : BitVec 8) : (encodeZ opc).extractLsb' 24 8 = opc := by
  apply BitVec.eq_of_getLsbD_eq; intro k hk
  have h : 24 + k < 32 := by omega
  simp [encodeZ, hk, h]

theorem opc_of_encodeX (opc : BitVec 8) (idx imm : BitVec 12) : (encodeX opc idx imm).extractLsb' 24 8 = opc := by
  apply BitVec.eq_of_getLsbD_eq; intro k hk
  have h : 24 + k < 32 := by omega
  have h₁ : ¬ 24 + k < 12 := by omega
  have h₂ : idx.getLsbD (24 + k - 12) = false := BitVec.getLsbD_of_ge _ _ (by omega)
  have h₃ : imm.getLsbD (24 + k) = false := BitVec.getLsbD_of_ge _ _ (by omega)
  simp [encodeX, hk, h, h₁, h₂, h₃]

theorem opc_of_encodeB (opc : BitVec 8) (high low : BitVec 5) : (encodeB opc high low).extractLsb' 24 8 = opc := by
  apply BitVec.eq_of_getLsbD_eq; intro k hk
  have h : 24 + k < 32 := by omega
  have h₁ : ¬ 24 + k < 5 := by omega
  have h₂ : high.getLsbD (24 + k - 5) = false := BitVec.getLsbD_of_ge _ _ (by omega)
  have h₃ : low.getLsbD (24 + k) = false := BitVec.getLsbD_of_ge _ _ (by omega)
  simp [encodeB, hk, h, h₁, h₂, h₃]

theorem opc_of_encodeV (opc : BitVec 8) (sub : BitVec 4) (mode : BitVec 2) :
    (encodeV opc sub mode).extractLsb' 24 8 = opc := by
  apply BitVec.eq_of_getLsbD_eq; intro k hk
  have h : 24 + k < 32 := by omega
  have h₁ : ¬ 24 + k < 2 := by omega
  have h₂ : sub.getLsbD (24 + k - 2) = false := BitVec.getLsbD_of_ge _ _ (by omega)
  have h₃ : mode.getLsbD (24 + k) = false := BitVec.getLsbD_of_ge _ _ (by omega)
  simp [encodeV, hk, h, h₁, h₂, h₃]

theorem readBits (high low : BitVec 5) : Statement (.readBits high low) := opc_of_encodeB _ high low
theorem writeBits (high low : BitVec 5) : Statement (.writeBits high low) := opc_of_encodeB _ high low
theorem take : Statement .take := opc_of_encodeZ _
theorem steal : Statement .steal := opc_of_encodeZ _
theorem mask (idx : BitVec 12) : Statement (.mask idx) := opc_of_encodeX _ idx 0
theorem unmask (idx : BitVec 12) : Statement (.unmask idx) := opc_of_encodeX _ idx 0
theorem isEnabled (idx : BitVec 12) : Statement (.isEnabled idx) := opc_of_encodeX _ idx 0
theorem isPending (idx : BitVec 12) : Statement (.isPending idx) := opc_of_encodeX _ idx 0
theorem pend (idx : BitVec 12) : Statement (.pend idx) := opc_of_encodeX _ idx 0
theorem unpend (idx : BitVec 12) : Statement (.unpend idx) := opc_of_encodeX _ idx 0
theorem getPriority (idx : BitVec 12) : Statement (.getPriority idx) := opc_of_encodeX _ idx 0
theorem setPriority (idx : BitVec 12) (value : BitVec 8) : Statement (.setPriority idx value) :=
  opc_of_encodeX _ idx (value.setWidth 12)
theorem isActive (idx : BitVec 12) : Statement (.isActive idx) := opc_of_encodeX _ idx 0
theorem enableShv (idx : BitVec 12) : Statement (.enableShv idx) := opc_of_encodeX _ idx 0
theorem disableShv (idx : BitVec 12) : Statement (.disableShv idx) := opc_of_encodeX _ idx 0
theorem setTrig (idx : BitVec 12) (trig : Trigger) : Statement (.setTrig idx trig) :=
  opc_of_encodeX _ idx (trig.code.setWidth 12)
theorem setModeBitWidth : Statement .setModeBitWidth := opc_of_encodeZ _
theorem getModeBitWidth : Statement .getModeBitWidth := opc_of_encodeZ _
theorem setLevelBitWidth : Statement .setLevelBitWidth := opc_of_encodeZ _
theorem getLevelBitWidth : Statement .getLevelBitWidth := opc_of_encodeZ _
theorem hasInterruptVectoring : Statement .hasInterruptVectoring := opc_of_encodeZ _
theorem getNumInt : Statement .getNumInt := opc_of_encodeZ _
theorem getPossibleLevelBits : Statement .getPossibleLevelBits := opc_of_encodeZ _
theorem getVersion : Statement .getVersion := opc_of_encodeZ _
theorem getMaxInterrupts : Statement .getMaxInterrupts := opc_of_encodeZ _
theorem mtvecAddress : Statement .mtvecAddress := opc_of_encodeZ _
theorem mtvecTrapMode : Statement .mtvecTrapMode := opc_of_encodeZ _
theorem mtvecSubMode : Statement .mtvecSubMode := opc_of_encodeZ _
theorem mtvecWrite (submode : SubMode) (mode : TrapMode) : Statement (.mtvecWrite submode mode) :=
  opc_of_encodeV _ submode.code mode.code

end Sys2Proof.Laws.OpcodeField
end

