-- ==== Sys2Proof/Laws/Step.lean ====
section
/-! SUPPORT. Everything a step can do, said once: the proofs about `step` cite these and do not unfold `fetch`. -/

namespace Sys2Proof.Machine

/-- The state that a step starts from: the schedule's head is used up and the outputs are idle. -/
def State.opened (s : State) (rest : List Move) : State := { s with schedule := rest, out := none }

/-- What the next step fetches, by the schedule's head. -/
theorem fetch_nil {s : State} (h : s.schedule = []) : fetch s = .done (.next { s with out := none }) := by
  simp [fetch, h]

theorem fetch_requester {s : State} {q : Nat} {rest : List Move} (h : s.schedule = .requester q :: rest) :
    fetch s = fetchRequester q (s.opened rest) := by
  simp [fetch, h, State.opened]

theorem fetch_tcause {s : State} {v : MWord} {rest : List Move} (h : s.schedule = .tcause v :: rest) :
    fetch s = .done (.next (envTcause v (s.opened rest))) := by
  simp [fetch, h, State.opened]

theorem fetch_pending {s : State} {i : Nat} {b : Bool} {rest : List Move} (h : s.schedule = .pending i b :: rest) :
    fetch s = .done (.next (envPending i b (s.opened rest))) := by
  simp [fetch, h, State.opened]

/-- What the step of requester `q` runs or does: one of nine cases. -/
theorem fetchRequester_cases (q : Nat) (s : State) :
    (fetchRequester q s = .done (.next s)) ∨
    (∃ f, q < s.build.requesters ∧ s.inflightOf q = some f ∧
      fetchRequester q s = .run f.op (s.present q f.command)) ∨
    (q < s.build.requesters ∧ s.inflightOf q = none ∧ ∃ rest,
      (∃ c i, s.programOf q = .command c :: rest ∧ decode s.build.clicSupport c.cmd = .ok i ∧
        fetchRequester q s = .run i ((s.setProgram q rest).present q c)) ∨
      (∃ c e, s.programOf q = .command c :: rest ∧ decode s.build.clicSupport c.cmd = .error e ∧
        fetchRequester q s = .done (.next (replyIllegal ((s.setProgram q rest).present q c)))) ∨
      (∃ addr n, s.programOf q = .memRead addr n :: rest ∧
        fetchRequester q s = .done (memRead q addr n (s.setProgram q rest))) ∨
      (∃ addr n v, s.programOf q = .memWrite addr n v :: rest ∧
        fetchRequester q s = .done (memWrite addr n v (s.setProgram q rest))) ∨
      (s.programOf q = .csrRead :: rest ∧
        fetchRequester q s = .done (.next (rawCsrRead q (s.setProgram q rest)))) ∨
      (∃ v, s.programOf q = .csrWrite v :: rest ∧
        fetchRequester q s = .done (.next (csrWrite (s.setProgram q rest) v)))) := by
  by_cases hq : q < s.build.requesters
  · cases hf : s.inflightOf q with
    | some f => exact .inr (.inl ⟨f, hq, rfl, by simp [fetchRequester, hq, hf]⟩)
    | none =>
      cases hp : s.programOf q with
      | nil => exact .inl (by simp [fetchRequester, hq, hf, fetchAction, hp])
      | cons a rest =>
        refine .inr (.inr ⟨hq, rfl, rest, ?_⟩)
        cases a with
        | command c =>
          cases hd : decode s.build.clicSupport c.cmd with
          | ok i => exact .inl ⟨c, i, rfl, hd, by simp [fetchRequester, hq, hf, fetchAction, hp, issue, hd]⟩
          | error e =>
            exact .inr (.inl ⟨c, e, rfl, hd, by simp [fetchRequester, hq, hf, fetchAction, hp, issue, hd]⟩)
        | memRead addr n =>
          exact .inr (.inr (.inl ⟨addr, n, rfl, by simp [fetchRequester, hq, hf, fetchAction, hp]⟩))
        | memWrite addr n v =>
          exact .inr (.inr (.inr (.inl ⟨addr, n, v, rfl, by simp [fetchRequester, hq, hf, fetchAction, hp]⟩)))
        | csrRead =>
          exact .inr (.inr (.inr (.inr (.inl ⟨rfl, by simp [fetchRequester, hq, hf, fetchAction, hp]⟩))))
        | csrWrite v =>
          exact .inr (.inr (.inr (.inr (.inr ⟨v, rfl, by simp [fetchRequester, hq, hf, fetchAction, hp]⟩))))
  · exact .inl (by simp [fetchRequester, hq])

/-- A step runs an operation or does what was fetched. -/
theorem step_run {s t : State} {i : Instr} (h : fetch s = .run i t) : step s = exec i t := by
  simp [step, h]

theorem step_done {s : State} {o : Host.Outcome State Fault Refusal} (h : fetch s = .done o) : step s = o := by
  simp [step, h]

/-- What a step that answers a next state was, by the schedule's head: idle, a move of the environment, or a requester's
step, which does nothing, goes on with its operation in flight, or issues its next action. -/
theorem step_cases {s t : State} (h : step s = .next t) :
    (s.schedule = [] ∧ t = { s with out := none }) ∨
    (∃ v m, s.schedule = .tcause v :: m ∧ t = envTcause v (s.opened m)) ∨
    (∃ i b m, s.schedule = .pending i b :: m ∧ t = envPending i b (s.opened m)) ∨
    (∃ q m, s.schedule = .requester q :: m ∧
      (t = s.opened m ∨
       (∃ f, q < s.build.requesters ∧ s.inflightOf q = some f ∧
         fetch s = .run f.op ((s.opened m).present q f.command) ∧
         exec f.op ((s.opened m).present q f.command) = .next t) ∨
       (q < s.build.requesters ∧ s.inflightOf q = none ∧ ∃ rest,
         (∃ c i, s.programOf q = .command c :: rest ∧ decode s.build.clicSupport c.cmd = .ok i ∧
           fetch s = .run i (((s.opened m).setProgram q rest).present q c) ∧
           exec i (((s.opened m).setProgram q rest).present q c) = .next t) ∨
         (∃ c e, s.programOf q = .command c :: rest ∧ decode s.build.clicSupport c.cmd = .error e ∧
           t = replyIllegal (((s.opened m).setProgram q rest).present q c)) ∨
         (∃ addr n, s.programOf q = .memRead addr n :: rest ∧
           memRead q addr n ((s.opened m).setProgram q rest) = .next t) ∨
         (∃ addr n v, s.programOf q = .memWrite addr n v :: rest ∧
           memWrite addr n v ((s.opened m).setProgram q rest) = .next t) ∨
         (s.programOf q = .csrRead :: rest ∧ t = rawCsrRead q ((s.opened m).setProgram q rest)) ∨
         (∃ v, s.programOf q = .csrWrite v :: rest ∧ t = csrWrite ((s.opened m).setProgram q rest) v)))) := by
  cases hs : s.schedule with
  | nil => rw [step_done (fetch_nil hs)] at h; cases h; exact .inl ⟨rfl, by rw [hs]⟩
  | cons mv m =>
    cases mv with
    | tcause v => rw [step_done (fetch_tcause hs)] at h; cases h; exact .inr (.inl ⟨_, _, rfl, rfl⟩)
    | pending i b =>
      rw [step_done (fetch_pending hs)] at h; cases h; exact .inr (.inr (.inl ⟨_, _, _, rfl, rfl⟩))
    | requester q =>
      refine .inr (.inr (.inr ⟨q, m, rfl, ?_⟩))
      have hf := fetch_requester hs
      rcases fetchRequester_cases q (s.opened m) with hc | ⟨f, a1, a2, hc⟩ | ⟨a1, a2, rest, hc⟩
      · rw [hc] at hf; rw [step_done hf] at h; cases h; exact .inl rfl
      · rw [hc] at hf; rw [step_run hf] at h; exact .inr (.inl ⟨f, a1, a2, hf, h⟩)
      · refine .inr (.inr ⟨a1, a2, rest, ?_⟩)
        rcases hc with ⟨c, i, p, d, hc⟩ | ⟨c, e, p, d, hc⟩ | ⟨a, n, p, hc⟩ | ⟨a, n, v, p, hc⟩ | ⟨p, hc⟩ | ⟨v, p, hc⟩
        all_goals rw [hc] at hf
        · rw [step_run hf] at h; exact .inl ⟨c, i, p, d, hf, h⟩
        · rw [step_done hf] at h; cases h; exact .inr (.inl ⟨c, e, p, d, rfl⟩)
        · rw [step_done hf] at h; exact .inr (.inr (.inl ⟨_, _, p, h⟩))
        · rw [step_done hf] at h; exact .inr (.inr (.inr (.inl ⟨_, _, _, p, h⟩)))
        · rw [step_done hf] at h; cases h; exact .inr (.inr (.inr (.inr (.inl ⟨p, rfl⟩))))
        · rw [step_done hf] at h; cases h; exact .inr (.inr (.inr (.inr (.inr ⟨_, p, rfl⟩))))

/-- The state that a fetched operation runs at: the schedule and perhaps the command list moved on, the command on the port. -/
theorem fetch_run {s u : State} {i : Instr} (hf : fetch s = .run i u) :
    ∃ q m c, s.schedule = .requester q :: m ∧
      (u = (s.opened m).present q c ∨ ∃ rest, u = ((s.opened m).setProgram q rest).present q c) := by
  cases e : s.schedule with
  | nil => rw [fetch_nil e] at hf; cases hf
  | cons mv m =>
    cases mv with
    | tcause v => rw [fetch_tcause e] at hf; cases hf
    | pending _ _ => rw [fetch_pending e] at hf; cases hf
    | requester q =>
      refine ⟨q, m, ?_⟩
      rw [fetch_requester e] at hf
      rcases fetchRequester_cases q (s.opened m) with hc | ⟨f, a1, a2, hc⟩ | ⟨a1, a2, rest, hc⟩
      · rw [hc] at hf; cases hf
      · rw [hc] at hf
        simp only [Fetched.run.injEq] at hf
        obtain ⟨_, rfl⟩ := hf
        exact ⟨_, rfl, .inl rfl⟩
      · rcases hc with ⟨c, i, p, d, hc⟩ | ⟨c, e, p, d, hc⟩ | ⟨a, n, p, hc⟩ | ⟨a, n, v, p, hc⟩ | ⟨p, hc⟩ | ⟨v, p, hc⟩ <;>
          rw [hc] at hf <;> cases hf
        exact ⟨_, rfl, .inr ⟨_, rfl⟩⟩

end Sys2Proof.Machine
end

