-- ==== Sys2Proof/Machine/Text.lean ====
section
/-! DEFINITION. The textual form of a command (R91, D28), as the list of its tokens: the mnemonic and the operands in the order of the source's signature, each a name or a number. Commas and the radix of a number are not part of it. -/

namespace Sys2Proof.Machine

/-- A token of the textual form. -/
inductive Token where
  | name (text : String)
  | number (n : Nat)
deriving DecidableEq, Repr

/-- The name of a trigger type (R91). -/
def triggerName : Trigger → String
  | .levelPositive => "LevelPositive"
  | .edgePositive => "EdgePositive"
  | .levelNegative => "LevelNegative"
  | .edgeNegative => "EdgeNegative"

/-- The name of a delivery mode (R91). -/
def modeName : TrapMode → String
  | .direct => "Direct"
  | .vectored => "Vectored"
  | .clic => "Clic"

/-- The name of a sub-mode (R91). -/
def subModeName : SubMode → String
  | .default => "Default"

/-- The mnemonic in lower case (R91); the trap-vector operations carry the prefix `mtvec.`. -/
def textMnemonic : Instr → String
  | .readBits _ _ => "read_bits"
  | .writeBits _ _ => "write_bits"
  | .take => "take"
  | .steal => "steal"
  | .mask _ => "mask"
  | .unmask _ => "unmask"
  | .isEnabled _ => "is_enabled"
  | .isPending _ => "is_pending"
  | .pend _ => "pend"
  | .unpend _ => "unpend"
  | .getPriority _ => "get_priority"
  | .setPriority _ _ => "set_priority"
  | .isActive _ => "is_active"
  | .enableShv _ => "enable_shv"
  | .disableShv _ => "disable_shv"
  | .setTrig _ _ => "set_trig"
  | .setModeBitWidth => "set_mode_bit_width"
  | .getModeBitWidth => "get_mode_bit_width"
  | .setLevelBitWidth => "set_level_bit_width"
  | .getLevelBitWidth => "get_level_bit_width"
  | .hasInterruptVectoring => "has_interrupt_vectoring"
  | .getNumInt => "get_num_int"
  | .getPossibleLevelBits => "get_possible_level_bits"
  | .getVersion => "get_version"
  | .getMaxInterrupts => "get_max_interrupts"
  | .mtvecAddress => "mtvec.address"
  | .mtvecTrapMode => "mtvec.trap_mode"
  | .mtvecSubMode => "mtvec.sub_mode"
  | .mtvecWrite _ _ => "mtvec.write"

/-- The operands of the textual form (R91): `A` and `B` where the operation takes them, the fields of the command word, and
the sub-mode of `mtvec.write` in a CLIC build only. -/
def textOperands (clic : Bool) (c : Command) : Instr → List Token
  | .readBits high low => [.number (c.a.toNat % 2 ^ 32), .number high.toNat, .number low.toNat]
  | .writeBits high low => [.number (c.a.toNat % 2 ^ 32), .number high.toNat, .number low.toNat, .number c.b.toNat]
  | .setPriority idx value => [.number idx.toNat, .number value.toNat]
  | .setTrig idx trig => [.number idx.toNat, .name (triggerName trig)]
  | .setModeBitWidth | .setLevelBitWidth => [.number c.b.toNat]
  | .mtvecWrite submode mode =>
    if clic then [.number c.a.toNat, .name (subModeName submode), .name (modeName mode)]
    else [.number c.a.toNat, .name (modeName mode)]
  | .mask idx | .unmask idx | .isEnabled idx | .isPending idx | .pend idx | .unpend idx | .getPriority idx
  | .isActive idx | .enableShv idx | .disableShv idx => [.number idx.toNat]
  | .take | .steal | .getModeBitWidth | .getLevelBitWidth | .hasInterruptVectoring | .getNumInt
  | .getPossibleLevelBits | .getVersion | .getMaxInterrupts | .mtvecAddress | .mtvecTrapMode | .mtvecSubMode => []

/-- The textual form of a command (R91); an illegal command has none. -/
def commandText (clic : Bool) (c : Command) : Option (List Token) :=
  match decode clic c.cmd with
  | .ok i => some (.name (textMnemonic i) :: textOperands clic c i)
  | .error _ => none

end Sys2Proof.Machine
end

