-- ==== Sys2Proof/Tests/Slice0.lean ====
section
/-! SUPPORT. Small tests, with the expected values of 95_test_vectors.md, and a witness for the hypotheses of each statement. -/

namespace Sys2Proof.Tests

open Sys2Proof Sys2Proof.Machine

/-! ## Helpers -/

/-- A CLIC build of two requesters with the information word of section 2.4. -/
def clicBuild : Build := { Build.standard with requesters := 2, clicinfo := 0x3F025000 }

/-- A non-CLIC build of 32 bits with 16 control blocks and an interrupt source. -/
def plainBuild : Build :=
  { Build.standard with mxlen := .w32, clicSupport := false, nInt := 16, requesters := 2, hwPend := true, clicBase := 0x1000 }

/-- The two builds after reset, every register 0. -/
def c0 : State := State.resetWith clicBuild ResetValues.zero
def p0 : State := State.resetWith plainBuild ResetValues.zero

def nextOf (o : Host.Outcome State Fault Refusal) : Option State :=
  match o with
  | .next t => some t
  | .fault _ => none
  | .refused _ => none

def refusalOf (o : Host.Outcome State Fault Refusal) : Option Refusal :=
  match o with
  | .next _ => none
  | .fault _ => none
  | .refused r => some r

def faultOf (o : Host.Outcome State Fault Refusal) : Option Fault :=
  match o with
  | .next _ => none
  | .fault f => some f
  | .refused _ => none

/-- Requester 0 is about to do one action. -/
def ready (a : Action) (s : State) : State := { s with programs := [(0, [a])], schedule := [.requester 0] }

/-- Requester 0 is about to issue a command. -/
def readyCmd (cmd : Word) (a : MWord) (b : Word) (s : State) : State := ready (.command ⟨cmd, a, b⟩) s

/-- One step of requester 0 on a command. -/
def issue1 (cmd : Word) (a : MWord) (b : Word) (s : State) : Option State := nextOf (step (readyCmd cmd a b s))

/-- The two steps of a two-transaction command of requester 0. -/
def issue2 (cmd : Word) (b : Word) (s : State) : Option State :=
  match issue1 cmd 0 b s with
  | some t => nextOf (step { t with schedule := [.requester 0] })
  | none => none

def outOf (t : Option State) : Option Output :=
  match t with
  | some t => t.out
  | none => none

/-- The reply of a command. -/
def replyTo (cmd : Word) (a : MWord) (b : Word) (s : State) : Option Output := outOf (issue1 cmd a b s)

/-! ## Well-formedness: each check refuses its ill-formed term -/

theorem test_wf_subMode_needs_clic : Instr.wf false .mtvecSubMode = false ∧ Instr.wf true .mtvecSubMode = true := by decide
theorem test_wf_clicMode_needs_clic :
    Instr.wf false (.mtvecWrite .default .clic) = false ∧ Instr.wf true (.mtvecWrite .default .clic) = true := by decide
theorem test_wf_build : { Build.standard with nInt := 0 }.wf = false ∧ { Build.standard with nInt := 4097 }.wf = false ∧
    { Build.standard with requesters := 0 }.wf = false ∧ { Build.standard with clicBase := 2 }.wf = false ∧
    Build.standard.wf = true := by decide

/-! ## Decoding: words written out from R76 and R83 (section 2 of 95_test_vectors.md) -/

theorem test_decode_codec : decodeTableWord 32 0x010001E8 = some (.readBits 15 8) ∧
    decodeTableWord 32 0x020003FC = some (.writeBits 31 28) := by decide
theorem test_decode_gate : decodeTableWord 32 0x10000000 = some .take ∧ decodeTableWord 32 0x11000000 = some .steal := by decide
theorem test_decode_flags : decodeTableWord 32 0x20005000 = some (.mask 5) ∧ decodeTableWord 32 0x21FFF000 = some (.unmask 4095) ∧
    decodeTableWord 32 0x22001000 = some (.isEnabled 1) ∧ decodeTableWord 32 0x23FFF000 = some (.isPending 4095) ∧
    decodeTableWord 32 0x24FFF000 = some (.pend 4095) ∧ decodeTableWord 32 0x25005000 = some (.unpend 5) := by decide
theorem test_decode_interrupt : decodeTableWord 32 0x26007000 = some (.getPriority 7) ∧
    decodeTableWord 32 0x27007080 = some (.setPriority 7 0x80) ∧ decodeTableWord 32 0x28FFF000 = some (.isActive 4095) ∧
    decodeTableWord 32 0x29005000 = some (.enableShv 5) ∧ decodeTableWord 32 0x2A005000 = some (.disableShv 5) ∧
    decodeTableWord 32 0x2B005001 = some (.setTrig 5 .edgePositive) ∧
    decodeTableWord 32 0x2B005002 = some (.setTrig 5 .levelNegative) := by decide
theorem test_decode_global : decodeTableWord 32 0x30000000 = some .setModeBitWidth ∧
    decodeTableWord 32 0x31000000 = some .getModeBitWidth ∧ decodeTableWord 32 0x32000000 = some .setLevelBitWidth ∧
    decodeTableWord 32 0x33000000 = some .getLevelBitWidth ∧ decodeTableWord 32 0x34000000 = some .hasInterruptVectoring ∧
    decodeTableWord 32 0x35000000 = some .getNumInt ∧ decodeTableWord 32 0x36000000 = some .getPossibleLevelBits ∧
    decodeTableWord 32 0x37000000 = some .getVersion ∧ decodeTableWord 32 0x38000000 = some .getMaxInterrupts := by decide
theorem test_decode_trapVector : decodeTableWord 32 0x40000000 = some .mtvecAddress ∧
    decodeTableWord 32 0x41000000 = some .mtvecTrapMode ∧ decodeTableWord 32 0x42000000 = some .mtvecSubMode ∧
    decodeTableWord 32 0x43000000 = some (.mtvecWrite .default .direct) ∧
    decodeTableWord 32 0x43000001 = some (.mtvecWrite .default .vectored) ∧
    decodeTableWord 32 0x43000003 = some (.mtvecWrite .default .clic) := by decide

/-- Section 2.6, the reserved codes. -/
theorem test_decode_reserved : decode true 0x00000000#32 = .error .reservedOpcode ∧
    decode true 0x03000000#32 = .error .reservedOpcode ∧
    decode true 0x12000000#32 = .error .reservedOpcode ∧
    decode true 0x2C005000#32 = .error .reservedOpcode ∧
    decode true 0x39000000#32 = .error .reservedOpcode ∧
    decode true 0x44000000#32 = .error .reservedOpcode ∧
    decode true 0xFF000000#32 = .error .reservedOpcode := by decide
/-- Section 2.6, the must-be-zero bits. -/
theorem test_decode_mustBeZero : decode true 0x10000001#32 = .error .mustBeZero ∧
    decode true 0x35001000#32 = .error .mustBeZero ∧
    decode true 0x20005001#32 = .error .mustBeZero ∧
    decode true 0x27007180#32 = .error .mustBeZero ∧
    decode true 0x2B005004#32 = .error .mustBeZero ∧
    decode true 0x01000400#32 = .error .mustBeZero ∧
    decode true 0x43000040#32 = .error .mustBeZero := by decide
/-- Section 2.6, the operand values. -/
theorem test_decode_operands : decode true 0x43000002#32 = .error .reservedMode ∧
    decode true 0x43000007#32 = .error .undefinedSubMode ∧ decode false 0x43000003#32 = .error .clicBuildOnly ∧
    decode false 0x42000000#32 = .error .clicBuildOnly := by decide
/-- R91, with the text of S4 and P3. -/
theorem test_text : commandText true ⟨0x2B005001, 0, 0⟩ = some [.name "set_trig", .number 5, .name "EdgePositive"] ∧
    commandText true ⟨0x43000003, 0x20000100, 0⟩ =
      some [.name "mtvec.write", .number 0x20000100, .name "Default", .name "Clic"] := by decide

/-! ## One step of each operation (sections 2.1 to 2.5) -/

theorem test_readBits : replyTo 0x010001E8 0xFFFFFFFFDEADBEEF 0 c0 = some (.reply 0 .ok 0xBE) := by decide
theorem test_readBits_full : replyTo 0x010003E0 0xFFFFFFFF 0 c0 = some (.reply 0 .ok 0xFFFFFFFF) := by decide
theorem test_writeBits : replyTo 0x020001E8 0xDEADBEEF 0x1FF c0 = some (.reply 0 .ok 0xDEADFFEF) := by decide
theorem test_writeBits_top : replyTo 0x020003FC 0xDEADBEEF 0xFFFFFFF5 c0 = some (.reply 0 .ok 0x5EADBEEF) := by decide
theorem test_take : (issue1 0x10000000 0 0 c0).map (fun t => (t.out, t.taken)) = some (some (.reply 0 .ok 0), true) := by decide
theorem test_take_again : replyTo 0x10000000 0 0 { c0 with taken := true } = some (.reply 0 .none 0) := by decide
theorem test_steal : (issue1 0x11000000 0 0 { c0 with taken := true }).map (fun t => (t.out, t.taken)) =
    some (some (.reply 0 .ok 0), true) := by decide
theorem test_mask : (issue1 0x20000000 0 0 { c0 with en := [(0, true), (1, true)] }).map (·.en) = some [(1, true)] := by decide
theorem test_unmask : (issue1 0x21FFF000 0 0 { c0 with en := [(1, true)] }).map (·.en) = some [(1, true), (4095, true)] := by decide
theorem test_isEnabled : replyTo 0x22001000 0 0 { c0 with pend := [(1, true)] } = some (.reply 0 .ok 0) := by decide
theorem test_isPending : replyTo 0x23FFF000 0 0 { c0 with pend := [(4095, true)] } = some (.reply 0 .ok 1) := by decide
theorem test_pend : (issue1 0x24FFF000 0 0 c0).map (·.pend) = some [(4095, true)] := by decide
theorem test_unpend : (issue1 0x25FFF000 0 0 { c0 with pend := [(4095, true)] }).map (·.pend) = some [] := by decide
theorem test_getPriority : replyTo 0x26007000 0 0 { c0 with ctl := [(7, 0xABCDEF12)] } = some (.reply 0 .ok 0x12) := by decide
theorem test_setPriority : (issue2 0x27007080 0 { c0 with ctl := [(7, 0xABCDEF12)] }).map (fun t => (t.ctl, t.out)) =
    some ([(7, 0xABCDEF80)], some (.reply 0 .ok 0)) := by decide
theorem test_setPriority_step1 : (issue1 0x27007080 0 0 { c0 with ctl := [(7, 0xABCDEF12)] }).map
    (fun t => (t.ctl, t.out, t.inflight)) =
      some ([(7, 0xABCDEF12)], none, [(0, some ⟨.setPriority 7 0x80, ⟨0x27007080, 0, 0⟩, 0xABCDEF12⟩)]) := by decide
theorem test_isActive : replyTo 0x28005000 0 0 { c0 with tcause := 0x80001005 } = some (.reply 0 .ok 1) := by decide
theorem test_isActive_other : replyTo 0x28006000 0 0 { c0 with tcause := 0x80000005 } = some (.reply 0 .ok 0) := by decide
theorem test_enableShv : (issue2 0x29005000 0 { c0 with attr := [(5, 2)] }).map (·.attr) = some [(5, 3)] := by decide
theorem test_disableShv : (issue2 0x2A005000 0 { c0 with attr := [(5, 0xFFFFFFFF)] }).map (·.attr) =
    some [(5, 0xFFFFFFFE)] := by decide
theorem test_setTrig : (issue2 0x2B005001 0 c0).map (·.attr) = some [(5, 2)] := by decide
theorem test_setTrig_keeps : (issue2 0x2B005002 0 { c0 with attr := [(5, 0xFFFFFFF8)] }).map (·.attr) =
    some [(5, 0xFFFFFFFC)] := by decide
theorem test_setModeBitWidth : (issue2 0x30000000 7 { c0 with cfgw := 0x51 }).map (·.cfgw) = some 0x71 := by decide
theorem test_setLevelBitWidth : (issue2 0x32000000 0x13 { c0 with cfgw := 0x51 }).map (·.cfgw) = some 0x47 := by decide
theorem test_setLevelBitWidth_keeps : (issue2 0x32000000 8 { c0 with cfgw := 0xFFFFFF81 }).map (·.cfgw) =
    some 0xFFFFFF91 := by decide
theorem test_getModeBitWidth : replyTo 0x31000000 0 0 { c0 with cfgw := 0x51 } = some (.reply 0 .ok 2) := by decide
theorem test_getLevelBitWidth : replyTo 0x33000000 0 0 { c0 with cfgw := 0x51 } = some (.reply 0 .ok 8) := by decide
theorem test_hasInterruptVectoring : replyTo 0x34000000 0 0 { c0 with cfgw := 0x51 } = some (.reply 0 .ok 0) ∧
    replyTo 0x34000000 0 0 { c0 with cfgw := 0x50 } = some (.reply 0 .ok 1) := by decide
theorem test_getNumInt : replyTo 0x35000000 0 0 c0 = some (.reply 0 .ok 31) := by decide
theorem test_getPossibleLevelBits : replyTo 0x36000000 0 0 c0 = some (.reply 0 .ok 8) := by decide
theorem test_getVersion : replyTo 0x37000000 0 0 c0 = some (.reply 0 .ok 0x12) := by decide
theorem test_getMaxInterrupts : replyTo 0x38000000 0 0 c0 = some (.reply 0 .ok 4096) := by decide
theorem test_mtvecAddress : replyTo 0x40000000 0 0 { c0 with mtvec := 0x8000007F } = some (.reply 0 .ok 0x80000040) ∧
    replyTo 0x40000000 0 0 { p0 with mtvec := 0x103F } = some (.reply 0 .ok 0x103C) := by decide
theorem test_mtvecTrapMode : replyTo 0x41000000 0 0 { c0 with mtvec := 0x1003 } = some (.reply 0 .ok 3) ∧
    replyTo 0x41000000 0 0 { p0 with mtvec := 0x1003 } = some (.reply 0 .none 0) := by decide
theorem test_mtvecTrapMode_reserved : replyTo 0x41000000 0 0 { c0 with mtvec := 0x1002 } = some (.reply 0 .none 0) := by decide
theorem test_mtvecSubMode : replyTo 0x42000000 0 0 { c0 with mtvec := 0x20000103 } = some (.reply 0 .ok 0) ∧
    replyTo 0x42000000 0 0 { c0 with mtvec := 0x20000107 } = some (.reply 0 .none 0) := by decide
theorem test_mtvecSubMode_plain : replyTo 0x42000000 0 0 p0 = some (.reply 0 .illegal 0) := by decide
theorem test_mtvecWrite : (issue1 0x43000003 0x80000044 0 c0).map (·.mtvec) = some 0x80000047 ∧
    (issue1 0x43000001 0x1003 0 p0).map (·.mtvec) = some 0x1004 := by decide
theorem test_mtvecWrite_wraps : (issue1 0x43000001 0xFFFFFFFFFFFFFFFF 0 c0).map (·.mtvec) = some 0 ∧
    (issue1 0x43000001 0xFFFFFFFF 0 p0).map (·.mtvec) = some 0 := by decide
theorem test_illegal : (issue1 0x43000003 0x1000 0 p0).map (fun t => (t.mtvec, t.out)) =
    some (0, some (.reply 0 .illegal 0)) := by decide

/-! ## Raw transactions (section 2.7), the schedules of P4, the environment -/

def rawRead (addr n : Nat) (s : State) : Host.Outcome State Fault Refusal := step (ready (.memRead addr n) s)
def rawWrite (addr : Nat) (v : Word) (s : State) : Option State := nextOf (step (ready (.memWrite addr 4 v) s))

theorem test_rawWrite_enabled : (rawWrite 0x1054 0xFFFFFFFF c0).map (·.en) = some [(5, true)] ∧
    (rawWrite 0x1054 0xFFFFFFFE { c0 with en := [(5, true)] }).map (·.en) = some [] := by decide
theorem test_rawWrite_attr : (rawWrite 0x1058 0xFFFFFFFF c0).map (·.attr) = some [(5, 0xFFFFFFFF)] := by decide
theorem test_rawWrite_info : (rawWrite 0x0004 0 c0).map (·.build.clicinfo) = some 0x3F025000 := by decide
theorem test_rawRead_ctl : outOf (nextOf (rawRead 0x107C 4 { c0 with ctl := [(7, 0xABCDEF12)] })) =
    some (.memData 0 0xABCDEF12) := by decide
theorem test_rawRead_refused : refusalOf (rawRead 0x0008 4 c0) = some .reservedPadding ∧
    refusalOf (rawRead 0x1002 4 c0) = some .badTransaction ∧ refusalOf (rawRead 0x1000 1 c0) = some .badTransaction ∧
    refusalOf (rawRead 0x2100 4 p0) = some .unimplementedBlock ∧ refusalOf (rawRead 0x20000 4 c0) = some .systRegister ∧
    faultOf (rawRead 0x11000 4 c0) = some .noSuchAddress := by decide
theorem test_csr : outOf (nextOf (step (ready .csrRead { c0 with mtvec := 0x1002 }))) = some (.csrData 0 0x1002) ∧
    (nextOf (step (ready (.csrWrite 0x1002) c0))).map (·.mtvec) = some 0x1002 := by decide
theorem test_environment : (nextOf (step { p0 with schedule := [.pending 3 true] })).map (·.pend) = some [(3, true)] ∧
    (nextOf (step { c0 with schedule := [.pending 3 true] })).map (·.pend) = some [] ∧
    (nextOf (step { p0 with schedule := [.tcause 0x180000005] })).map (·.tcause) = some 0x80000005 := by decide

/-- P4: requester 0 sets the trigger, requester 1 sets SHV, of index 3. -/
def p4 (schedule : List Nat) : Option State :=
  nextOf (Host.Core.run Sys2Proof.core 4
    ({ c0 with
        programs := [(0, [.command ⟨0x2B003003, 0, 0⟩]), (1, [.command ⟨0x29003000, 0, 0⟩])]
        schedule := schedule.map .requester } : State))

theorem test_p4_serial : (p4 [0, 0, 1, 1]).map (·.attr) = some [(3, 7)] := by decide
theorem test_p4_trigger_lost : (p4 [0, 1, 0, 1]).map (·.attr) = some [(3, 1)] := by decide
theorem test_p4_shv_lost : (p4 [1, 0, 1, 0]).map (·.attr) = some [(3, 6)] := by decide

/-- The host's interface: the word placed is the word that the next step runs. -/
theorem test_withFetchWord : (nextOf (step (State.reset.withFetchWord 32 0x24FFF000))).map (·.pend) = some [(4095, true)] := by decide

/-! ## Witnesses: the hypotheses of each statement are met together, each clause at a boundary of its range -/

/-- Codec: the widest field, the narrowest at each end, two fields that do not overlap. -/
theorem witness_codec_range : (0 ≤ 31 ∧ 31 ≤ 31) ∧ (31 ≤ 31 ∧ 31 ≤ 31) ∧ (0 ≤ 0 ∧ 0 ≤ 31) := by decide
theorem witness_CodecLaws_disjoint : (8 ≤ 15 ∧ 15 ≤ 31) ∧ (0 ≤ 7 ∧ 7 ≤ 31 ∧ 7 < 8) ∧ (16 ≤ 31 ∧ 31 ≤ 31 ∧ 15 < 16) := by decide
theorem witness_codec_operations : (0 : BitVec 5).toNat ≤ (0 : BitVec 5).toNat ∧ (0 : BitVec 5).toNat ≤ (31 : BitVec 5).toNat ∧
    (0 : BitVec 5).toNat < (1 : BitVec 5).toNat ∧ (30 : BitVec 5).toNat < (31 : BitVec 5).toNat := by decide
theorem witness_TakeIsATestAndSet : c0.taken = false ∧ { c0 with taken := true }.taken = true := by decide
theorem witness_TheGateIsAOneShot_sticky : { c0 with taken := true }.taken = true ∧
    ∃ t, step (readyCmd 0x10000000 0 0 { c0 with taken := true }) = .next t := ⟨rfl, _, rfl⟩
theorem witness_TheGateIsAOneShot_handles : 1 < countSteps handsOut 2
    { c0 with programs := [(0, [.command ⟨0x10000000, 0, 0⟩, .command ⟨0x11000000, 0, 0⟩])]
              schedule := [.requester 0, .requester 0] } := by decide
theorem witness_TheGateGuardsNothing : (.mask 5 : Instr) ≠ .take ∧ (.mask 5 : Instr) ≠ .steal := by decide

/-- An index of a control block that the instance has: the last one of each build. -/
theorem witness_index : (0xFFF : BitVec 12).toNat < c0.build.nInt ∧ (15 : BitVec 12).toNat < p0.build.nInt ∧
    c0.inflightOf c0.port.requester = none ∧ p0.inflightOf p0.port.requester = none := by decide
theorem witness_UpdatesReadFirst :
    ∀ i ∈ [Instr.setPriority 4095 255, .enableShv 4095, .disableShv 0, .setTrig 4095 .edgeNegative, .setModeBitWidth,
        .setLevelBitWidth],
      ∃ u, updateOf i c0.port.command = some u ∧ u.reg.implemented c0.build = true ∧
        c0.inflightOf c0.port.requester = none := by
  intro i hi
  simp only [List.mem_cons, List.not_mem_nil, or_false] at hi
  rcases hi with rfl | rfl | rfl | rfl | rfl | rfl <;> exact ⟨_, rfl, by decide, rfl⟩

/-- A state in which requester 0 has `SET_PRIORITY` in flight. -/
def inFlight : State := { c0 with inflight := [(0, some ⟨.setPriority 7 0x80, ⟨0x27007080, 0, 0⟩, 0xABCDEF12⟩)] }

theorem witness_UpdatesWriteTheWordReadFirst : ∃ u f, updateOf (.setPriority 7 0x80) inFlight.port.command = some u ∧
    u.reg.implemented inFlight.build = true ∧ inFlight.inflightOf inFlight.port.requester = some f ∧
    f.op = .setPriority 7 0x80 := ⟨_, _, rfl, by decide, rfl, rfl⟩
theorem witness_PerInterruptFamilyProperties_flags : ∀ i ∈ [Instr.mask 4095, .unmask 4095, .pend 4095, .unpend 4095],
    ∃ t, exec i c0 = .next t := by
  intro i hi
  simp only [List.mem_cons, List.not_mem_nil, or_false] at hi
  rcases hi with rfl | rfl | rfl | rfl <;> exact ⟨_, rfl⟩
theorem witness_PerInterruptFamilyProperties_updates :
    ∀ i ∈ [Instr.setPriority 4095 255, .setTrig 4095 .edgeNegative, .enableShv 4095, .disableShv 4095],
      ∃ t, wholeOp i c0 = .next t := by
  intro i hi
  simp only [List.mem_cons, List.not_mem_nil, or_false] at hi
  rcases hi with rfl | rfl | rfl | rfl <;> exact ⟨_, rfl⟩
theorem witness_PerInterruptFamilyProperties_other : blockOf (.mask 5) = some 5 ∧ 6 ≠ (5 : BitVec 12).toNat ∧
    (∃ t, exec (.mask 5) c0 = .next t) ∧ ∃ t, exec (.isActive 5) c0 = .next t := ⟨rfl, by decide, ⟨_, rfl⟩, _, rfl⟩
theorem witness_UnimplementedBlocksAreRefused : (blockOf (.mask 16) = some 16 ∧ p0.build.nInt ≤ (16 : BitVec 12).toNat) ∧
    (blockOf (.setTrig 4095 .levelPositive) = some 4095 ∧ p0.build.nInt ≤ (4095 : BitVec 12).toNat) ∧
    (blockOf (.mask 4095) = some 4095 ∧ c0.build.nInt = 4096) ∧
    p0.build.wf = true ∧ (p0.build.nInt ≤ 16 ∧ 16 < 4096) ∧ (p0.build.nInt ≤ 4095 ∧ 4095 < 4096) ∧ 12 ∈ [0, 4, 8, 12] := by decide
theorem witness_GlobalFamilyProperties : (∃ t, wholeOp .setModeBitWidth c0 = .next t) ∧
    (∃ t, wholeOp .setLevelBitWidth c0 = .next t) ∧ (∃ t, wholeOp .take c0 = .next t) ∧
    (∃ t, step (readyCmd 0x10000000 0 0 c0) = .next t) ∧ c0.inflightOf c0.port.requester = none :=
  ⟨⟨_, rfl⟩, ⟨_, rfl⟩, ⟨_, rfl⟩, ⟨_, rfl⟩, rfl⟩
theorem witness_TrapVectorComposeIsASum : (0xFFFFFFFFFFFFFFFF : MWord).toNat < 2 ^ mxlenBits clicBuild.mxlen ∧
    (0xFFFFFFFF : MWord).toNat < 2 ^ mxlenBits plainBuild.mxlen := by decide
theorem witness_TrapVectorRoundTrip :
    ((0xFFFFFFFFFFFFFFC0 : MWord).toNat < 2 ^ mxlenBits clicBuild.mxlen ∧ (0xFFFFFFFFFFFFFFC0 : MWord).toNat % 64 = 0 ∧
      clicBuild.clicSupport = true ∧ TrapMode.wf clicBuild.clicSupport .clic = true) ∧
    ((0xFFFFFFFC : MWord).toNat < 2 ^ mxlenBits plainBuild.mxlen ∧ (0xFFFFFFFC : MWord).toNat % 4 = 0 ∧
      plainBuild.clicSupport = false ∧ TrapMode.wf plainBuild.clicSupport .vectored = true) := by decide
theorem witness_MtvecTrapModeDecodesTwoBits : (0x1000 : MWord).extractLsb' 0 2 = 0 ∧ (0x1001 : MWord).extractLsb' 0 2 = 1 ∧
    (0x1002 : MWord).extractLsb' 0 2 = 2 ∧ (0x1003 : MWord).extractLsb' 0 2 = 3 ∧ c0.build.clicSupport = true ∧
    p0.build.clicSupport = false := by decide
theorem witness_MtvecSubModeDecodesFourBits : (0x1003 : MWord).extractLsb' 2 4 = 0 ∧ (0x1007 : MWord).extractLsb' 2 4 ≠ 0 ∧
    (0x103F : MWord).extractLsb' 2 4 ≠ 0 := by decide
theorem witness_MtvecWriteStoresTheSum : TrapMode.wf c0.build.clicSupport .clic = true ∧
    TrapMode.wf p0.build.clicSupport .vectored = true ∧ TrapMode.wf p0.build.clicSupport .clic = false := by decide

/-- The two ends of each range of R85, and one word of each must-be-zero rule. -/
theorem witness_ReservedEncodingsAreIllegal :
    (∀ opc ∈ [0x00, 0x03, 0x0F, 0x12, 0x1F, 0x2C, 0x2F, 0x39, 0x3F, 0x44, 0xFF],
      opc = 0x00 ∨ (0x03 ≤ opc ∧ opc ≤ 0x0F) ∨ (0x12 ≤ opc ∧ opc ≤ 0x1F) ∨ (0x2C ≤ opc ∧ opc ≤ 0x2F) ∨
        (0x39 ≤ opc ∧ opc ≤ 0x3F) ∨ (0x44 ≤ opc ∧ opc ≤ 0xFF)) ∧
    (0x10000001#32).extractLsb' 0 24 ≠ 0 ∧ (0x42800000#32).extractLsb' 0 24 ≠ 0 ∧ (0x01000400#32).extractLsb' 10 14 ≠ 0 ∧
    (0x43000040#32).extractLsb' 6 18 ≠ 0 ∧ (0x20005001#32).extractLsb' 0 12 ≠ 0 ∧ (0x2A005800#32).extractLsb' 0 12 ≠ 0 ∧
    (0x27007180#32).extractLsb' 8 4 ≠ 0 ∧ (0x2B005004#32).extractLsb' 2 10 ≠ 0 := by decide
theorem witness_OperandValuesWithNoMeaningAreIllegal :
    ((0x43000002#32).extractLsb' 24 8 = 0x43#8 ∧ (0x43000002#32).extractLsb' 0 2 = 2#2) ∧
    ((0x43000007#32).extractLsb' 24 8 = 0x43#8 ∧ (0x43000007#32).extractLsb' 2 4 ≠ 0#4) ∧
    ((0x43000003#32).extractLsb' 24 8 = 0x43#8 ∧ (0x43000003#32).extractLsb' 0 2 = 3#2) ∧
    (0x42000000#32).extractLsb' 24 8 = 0x42#8 := by decide
/-- An illegal word on the port of each build (`repliesIllegal`). -/
theorem witness_repliesIllegal :
    (readyCmd 0x42000000 0 0 p0).schedule = .requester 0 :: [] ∧ 0 < (readyCmd 0x42000000 0 0 p0).build.requesters ∧
    (readyCmd 0x42000000 0 0 p0).inflightOf 0 = none ∧
    (readyCmd 0x42000000 0 0 p0).programOf 0 = .command ⟨0x42000000, 0, 0⟩ :: [] ∧ p0.build.clicSupport = false := by decide
theorem witness_StepRunsTheDecodedCommand :
    (readyCmd 0x10000000 0 0 c0).schedule = .requester 0 :: [] ∧ 0 < (readyCmd 0x10000000 0 0 c0).build.requesters ∧
    (readyCmd 0x10000000 0 0 c0).inflightOf 0 = none ∧
    (readyCmd 0x10000000 0 0 c0).programOf 0 = .command ⟨0x10000000, 0, 0⟩ :: [] ∧
    decode c0.build.clicSupport 0x10000000 = .ok .take := by decide
theorem witness_StepGoesOnWithTheOperationInFlight :
    ({ inFlight with schedule := [.requester 0] } : State).schedule = .requester 0 :: [] ∧ 0 < inFlight.build.requesters ∧
    (inFlight.inflightOf 0).isSome = true := by decide
theorem witness_TwoStepsMakeTheWholeOperation :
    ({ readyCmd 0x2A005000 0 0 c0 with schedule := [.requester 0, .requester 0] } : State).schedule =
      .requester 0 :: .requester 0 :: [] ∧
    0 < c0.build.requesters ∧ (readyCmd 0x2A005000 0 0 c0).inflightOf 0 = none ∧
    (readyCmd 0x2A005000 0 0 c0).programOf 0 = .command ⟨0x2A005000, 0, 0⟩ :: [] ∧
    decode c0.build.clicSupport 0x2A005000 = .ok (.disableShv 5) ∧ twoStep (.disableShv 5) = true ∧
    available c0.build (.disableShv 5) = true := by decide
theorem witness_StepPerformsRawTransactions :
    ∀ a ∈ [Action.memRead 0x1058 4, .memWrite 0x1058 4 1, .csrRead, .csrWrite 0x1002],
      (ready a c0).schedule = .requester 0 :: [] ∧ 0 < (ready a c0).build.requesters ∧ (ready a c0).inflightOf 0 = none ∧
        (ready a c0).programOf 0 = a :: [] := by decide
/-- Requester 0's step, while requester 1 has an operation in flight. -/
theorem witness_InflightIsPrivate :
    (∀ moves, (ready .csrRead inFlight).schedule ≠ .requester 1 :: moves) ∧
    ∃ t, step (ready .csrRead (inFlight.setInflight 0 none)) = .next t :=
  ⟨fun moves h => by simp [ready] at h, _, rfl⟩
theorem witness_NothingScheduledNothingHappens : c0.schedule = [] := rfl
theorem witness_EnvironmentMoves : (p0.build.hwPend = true ∧ 15 < p0.build.nInt) ∧ p0.build.nInt ≤ 16 ∧
    c0.build.hwPend = false ∧ ({ c0 with schedule := [.tcause 5] } : State).schedule = .tcause 5 :: [] ∧
    ({ p0 with schedule := [.pending 15 true] } : State).schedule = .pending 15 true :: [] := by decide
theorem witness_AddressMap : clicBuild.wf = true ∧ plainBuild.wf = true ∧ (8 ≤ 8 ∧ 8 < 0x1000 ∧ 8 % 4 = 0) ∧
    (8 ≤ 0xFFC ∧ 0xFFC < 0x1000 ∧ 0xFFC % 4 = 0) ∧ 0 < clicBuild.nInt ∧ 4095 < clicBuild.nInt ∧ 15 < plainBuild.nInt ∧
    locate clicBuild 0x10FFC 4 = .reg (.ctl 4095) := by decide
theorem witness_raw_registers :
    ∀ r ∈ [Reg.cfg, .info, .pend 4095, .en 0, .attr 4095, .ctl 0], r.implemented clicBuild = true := by decide
theorem witness_TransactionsWithNoMeaningAreRefused : (1 ≠ 4 ∨ 0x1000 % 4 ≠ 0) ∧ (8 ≠ 4 ∨ 0x1000 % 4 ≠ 0) ∧
    (4 ≠ 4 ∨ 0x1002 % 4 ≠ 0) := by decide
/-- Just below and just above the register space, the first and the last word of the SYST window, and the word after it. -/
theorem witness_OutsideTheRegisterSpace :
    (0xFFC < p0.build.clicBase ∧ ¬ (p0.build.systBase ≤ 0xFFC ∧ 0xFFC < p0.build.systBase + 0x28)) ∧
    (c0.build.clicBase + 0x11000 ≤ 0x11000 ∧ ¬ (c0.build.systBase ≤ 0x11000 ∧ 0x11000 < c0.build.systBase + 0x28)) ∧
    (c0.build.clicBase + 0x11000 ≤ 0x20000 ∧ (c0.build.systBase ≤ 0x20000 ∧ 0x20000 < c0.build.systBase + 0x28)) ∧
    (c0.build.clicBase + 0x11000 ≤ 0x20024 ∧ (c0.build.systBase ≤ 0x20024 ∧ 0x20024 < c0.build.systBase + 0x28)) ∧
    (c0.build.clicBase + 0x11000 ≤ 0x20028 ∧ ¬ (c0.build.systBase ≤ 0x20028 ∧ 0x20028 < c0.build.systBase + 0x28)) := by decide
theorem witness_ResetEstablishesTheInvariant : plainBuild.wf = true ∧
    ResetValues.ok plainBuild ⟨0xFFFFFFFF, [(15, true)], [(0, true)], [(3, 7)], [(15, 255)], 0xFFFFFFFF, 0x80000005⟩ := by decide
theorem witness_EveryStepKeepsTheInvariant : (readyCmd 0x2A005000 0 0 inFlight).Inv ∧
    ∃ t, step (readyCmd 0x2A005000 0 0 inFlight) = .next t := ⟨by decide, _, rfl⟩
theorem witness_NoStepChangesTheParameters : ∃ t, step (ready (.memWrite 4 4 0) c0) = .next t := ⟨_, rfl⟩
theorem witness_OperationsStopOnlyOnMissingBlocks : exec (.mask 16) p0 = .refused .unimplementedBlock ∧
    available c0.build (.mask 4095) = true ∧ available p0.build .take = true := ⟨rfl, by decide, by decide⟩
theorem witness_EveryOperationEndsWithinTwoTransactions : available p0.build (.setPriority 15 0) = true ∧
    p0.inflightOf p0.port.requester = none := by decide
/-- A reply of each status. -/
theorem witness_StatusOfAReply : c0.out = none ∧
    (∃ t, exec .take c0 = .next t ∧ t.out = some (.reply 0 .ok 0)) ∧
    (∃ t, exec .take { c0 with taken := true } = .next t ∧ t.out = some (.reply 0 .none 0)) ∧
    (∃ t, exec .mtvecSubMode p0 = .next t ∧ t.out = some (.reply 0 .illegal 0)) :=
  ⟨rfl, ⟨_, rfl, rfl⟩, ⟨_, rfl, rfl⟩, _, rfl, rfl⟩
theorem witness_PendingChangesOnlyByItsWriters : c0.build.hwPend = false ∧
    (∃ t, step (readyCmd 0x24FFF000 0 0 c0) = .next t ∧ t.pending 4095 ≠ c0.pending 4095) ∧
    ∃ t, step (ready (.memWrite 0x1050 4 1) c0) = .next t ∧ t.pending 5 ≠ c0.pending 5 :=
  ⟨rfl, ⟨_, rfl, by decide⟩, _, rfl, by decide⟩
theorem witness_OnlyTheirWritersChangeTheOtherRegisters :
    (∃ t, step (readyCmd 0x21FFF000 0 0 c0) = .next t ∧ t.enabled 4095 ≠ c0.enabled 4095) ∧
    (∃ t, step (ready (.memWrite 0x10FF4 4 1) c0) = .next t ∧ t.enabled 4095 ≠ c0.enabled 4095) ∧
    (∃ t, step (readyCmd 0x43000001 0x1000 0 c0) = .next t ∧ t.mtvec ≠ c0.mtvec) ∧
    (∃ t, step (ready (.csrWrite 5) c0) = .next t ∧ t.mtvec ≠ c0.mtvec) ∧
    (∃ t, step (readyCmd 0x11000000 0 0 c0) = .next t ∧ t.taken ≠ c0.taken) ∧
    ∃ t, step { c0 with schedule := [.tcause 7] } = .next t ∧ t.tcause ≠ c0.tcause :=
  ⟨⟨_, rfl, by decide⟩, ⟨_, rfl, by decide⟩, ⟨_, rfl, by decide⟩, ⟨_, rfl, by decide⟩, ⟨_, rfl, by decide⟩, _, rfl, by decide⟩

/-- Requester 0 is about to do step 2 of an operation. -/
def halfway (op : Instr) (b : Word) : State :=
  { c0 with inflight := [(0, some ⟨op, ⟨encode op, 0, b⟩, 0⟩)], schedule := [.requester 0] }

theorem witness_OnlyTheirWritersChangeTheOtherRegisters_cfg :
    (∃ t, step (halfway .setModeBitWidth 3) = .next t ∧ t.cfgw ≠ c0.cfgw) ∧
    (∃ t, step (halfway .setLevelBitWidth 8) = .next t ∧ t.cfgw ≠ c0.cfgw) ∧
    ∃ t, step (ready (.memWrite 0 4 0x80000000) c0) = .next t ∧ t.cfgw ≠ c0.cfgw :=
  ⟨⟨_, rfl, by decide⟩, ⟨_, rfl, by decide⟩, _, rfl, by decide⟩
theorem witness_OnlyTheirWritersChangeTheOtherRegisters_attr :
    (∃ t, step (halfway (.enableShv 4095) 0) = .next t ∧ t.attrw 4095 ≠ c0.attrw 4095) ∧
    (∃ t, step { halfway (.disableShv 0) 0 with attr := [(0, 1)] } = .next t ∧ t.attrw 0 ≠ 1) ∧
    (∃ t, step (halfway (.setTrig 4095 .edgePositive) 0) = .next t ∧ t.attrw 4095 ≠ c0.attrw 4095) ∧
    ∃ t, step (ready (.memWrite 0x10FF8 4 8) c0) = .next t ∧ t.attrw 4095 ≠ c0.attrw 4095 :=
  ⟨⟨_, rfl, by decide⟩, ⟨_, rfl, by decide⟩, ⟨_, rfl, by decide⟩, _, rfl, by decide⟩
theorem witness_OnlyTheirWritersChangeTheOtherRegisters_ctl :
    (∃ t, step (halfway (.setPriority 4095 1) 0) = .next t ∧ t.ctlw 4095 ≠ c0.ctlw 4095) ∧
    ∃ t, step (ready (.memWrite 0x100C 4 0x100) c0) = .next t ∧ t.ctlw 0 ≠ c0.ctlw 0 :=
  ⟨⟨_, rfl, by decide⟩, _, rfl, by decide⟩

/-- A finished requester and a number outside `REQUESTERS` use up their turn and the outputs only (log entry 6). -/
theorem test_idle_turns : step { c0 with schedule := [.requester 0] } = .next c0 ∧
    step { readyCmd 0x10000000 0 0 c0 with schedule := [.requester 2] } =
      .next { readyCmd 0x10000000 0 0 c0 with schedule := [] } := ⟨rfl, rfl⟩

theorem witness_FieldIsolation : c0.inflightOf c0.port.requester = none ∧
    (∃ t, wholeOp (.setTrig 5 .edgeNegative) c0 = .next t) ∧ (∃ t, wholeOp (.unmask 4095) c0 = .next t) ∧
    (∃ t, wholeOp (.pend 4095) c0 = .next t) ∧ (∃ t, wholeOp .getVersion c0 = .next t) :=
  ⟨rfl, ⟨_, rfl⟩, ⟨_, rfl⟩, ⟨_, rfl⟩, _, rfl⟩

end Sys2Proof.Tests
end

