-- ==== Sys2Proof/Proofs/Scope.lean ====
section
/-! The parameters of the instance (R6): nothing that a step can do writes them. -/

namespace Sys2Proof.Machine

@[simp] theorem State.opened_build (s : State) (m : List Move) : (s.opened m).build = s.build := rfl

@[simp] theorem rawCsrRead_build (q : Nat) (s : State) : (rawCsrRead q s).build = s.build := rfl

@[simp] theorem replyIllegal_build (s : State) : (replyIllegal s).build = s.build := rfl

theorem memRead_build {q addr n : Nat} {s t : State} (h : memRead q addr n s = .next t) : t.build = s.build := by
  obtain ⟨r, -, rfl⟩ := memRead_next h
  rfl

theorem memWrite_build {addr n : Nat} {v : Word} {s t : State} (h : memWrite addr n v s = .next t) :
    t.build = s.build := by
  obtain ⟨r, -, rfl⟩ := memWrite_next h
  exact s.store_build r v

theorem updateOp_build {op : Instr} {r : Reg} {high low : Nat} {v : Word} {s t : State}
    (h : updateOp op r high low v s = .next t) : t.build = s.build := by
  obtain ⟨-, rfl | ⟨f, -, -, rfl⟩⟩ := updateOp_next h
  · rfl
  · simp

/-- No operation changes a parameter, whether it is legal in the build or not. -/
theorem exec_build {i : Instr} {s t : State} (h : exec i s = .next t) : t.build = s.build := by
  obtain ⟨d, st, x, rfl, -⟩ | ⟨st, rfl, -⟩ | ⟨r, v, rfl, -⟩ | ⟨u, -, hu⟩ | ⟨sub, mode, v, -, rfl⟩ | ⟨-, rfl⟩ :=
    exec_next h
  · rfl
  · rfl
  · simp
  · exact updateOp_build hu
  · rfl
  · rfl

/-- No step changes a parameter: an idle step, a move of the environment, an operation and a raw transaction alike. -/
theorem step_build {s t : State} (h : step s = .next t) : t.build = s.build := by
  obtain ⟨-, rfl⟩ | ⟨v, m, -, rfl⟩ | ⟨i, b, m, -, rfl⟩ | ⟨q, m, -, hq⟩ := step_cases h
  · rfl
  · rfl
  · simp
  · obtain rfl | ⟨f, -, -, -, hx⟩ | ⟨-, -, rest, ha⟩ := hq
    · rfl
    · simpa using exec_build hx
    · obtain ⟨c, i, -, -, -, hx⟩ | ⟨c, e, -, -, rfl⟩ | ⟨addr, n, -, hr⟩ | ⟨addr, n, v, -, hw⟩ | ⟨-, rfl⟩ |
        ⟨v, -, rfl⟩ := ha
      · simpa using exec_build hx
      · simp
      · simpa using memRead_build hr
      · simpa using memWrite_build hw
      · simp
      · simp

/-- `clicinfo` holds no state: it is a parameter of the build (R14). -/
theorem stored_info_of_build {s t : State} (h : t.build = s.build) : t.stored .info = s.stored .info :=
  congrArg Build.clicinfo h

/-- Settles O54: every case of `step_cases` keeps the build, and `clicinfo` is read from the build. -/
theorem noStepChangesTheParameters : Obligations.NoStepChangesTheParameters := by
  intro s t h
  have hb : t.build = s.build := step_build h
  exact ⟨hb, stored_info_of_build hb⟩

end Sys2Proof.Machine
end

section
/-! The operations of two transactions (R25, R55): step 1, step 2, and both taken whole. -/

namespace Sys2Proof.Machine

/-! ## The read-modify-write that an operation is -/

theorem updateOf_isSome (i : Instr) (c : Command) : (updateOf i c).isSome = twoStep i := by
  cases i <;> rfl

/-- The register that a read-modify-write updates is there exactly when its control block is (R46). -/
theorem updateOf_implemented {i : Instr} {c : Command} {u : Update} (b : Build) (h : updateOf i c = some u) :
    u.reg.implemented b = available b i := by
  cases i <;> cases h <;> rfl

theorem updateOf_low_le_high {i : Instr} {c : Command} {u : Update} (h : updateOf i c = some u) : u.low ≤ u.high := by
  cases i <;> cases h <;> exact Nat.le_of_ble_eq_true rfl

/-- A field update leaves `clicinfo` and the one-bit registers to others: what it stores is read back whole. -/
theorem updateOf_readBack {i : Instr} {c : Command} {u : Update} (h : updateOf i c = some u) (info v : Word) :
    u.reg.readBack info v = v := by
  cases i <;> cases h <;> rfl

/-- The operation `i` in flight for the port's requester, with the word that its read transaction returned. -/
def State.begun (s : State) (i : Instr) (u : Update) : State :=
  s.setInflight s.port.requester (some ⟨i, s.port.command, s.stored u.reg⟩)

/-- The field replaced in the word `w` and the word written back, nothing in flight any more, and the reply. -/
def State.updated (s : State) (u : Update) (w : Word) : State :=
  ((s.store u.reg (writeBits w u.high u.low u.value)).setInflight s.port.requester none).reply .ok 0

@[simp] theorem State.begun_build (s : State) (i : Instr) (u : Update) : (s.begun i u).build = s.build := rfl
@[simp] theorem State.begun_port (s : State) (i : Instr) (u : Update) : (s.begun i u).port = s.port := rfl
@[simp] theorem State.begun_stored (s : State) (i : Instr) (u : Update) (r : Reg) :
    (s.begun i u).stored r = s.stored r := State.setInflight_stored ..
@[simp] theorem State.begun_inflightOf_same (s : State) (i : Instr) (u : Update) :
    (s.begun i u).inflightOf s.port.requester = some ⟨i, s.port.command, s.stored u.reg⟩ :=
  State.setInflight_inflightOf_same ..
@[simp] theorem State.updated_inflightOf_same (s : State) (u : Update) (w : Word) :
    (s.updated u w).inflightOf s.port.requester = none := by
  simp [State.updated]

theorem State.begun_inflightOf_other (s : State) (i : Instr) (u : Update) {p : Nat} (hp : p ≠ s.port.requester) :
    (s.begun i u).inflightOf p = s.inflightOf p := State.setInflight_inflightOf_other _ _ hp

theorem State.updated_inflightOf_other (s : State) (u : Update) (w : Word) {p : Nat} (hp : p ≠ s.port.requester) :
    (s.updated u w).inflightOf p = s.inflightOf p := by
  simp [State.updated, State.setInflight_inflightOf_other _ _ hp]

theorem State.updated_writesOnly (s : State) (u : Update) (w : Word) : writesOnly u.reg s (s.updated u w) :=
  writesOnly_store_inflight ..

theorem State.updated_stored_same {i : Instr} {c : Command} {u : Update} (h : updateOf i c = some u) (s : State)
    (w : Word) : (s.updated u w).stored u.reg = writeBits w u.high u.low u.value := by
  simp [State.updated, stored_store_same, updateOf_readBack h]

/-- Step 1: this operation is not in flight for the requester, so it reads (log entry 20). -/
theorem exec_begins_of_ne {i : Instr} {u : Update} {s : State} (hu : updateOf i s.port.command = some u)
    (hr : u.reg.implemented s.build = true) (hn : ∀ f, s.inflightOf s.port.requester = some f → f.op ≠ i) :
    exec i s = .next (s.begun i u) := by
  cases hf : s.inflightOf s.port.requester with
  | none => simp [exec_updateOf hu, updateOp, hf, beginUpdate_eq, hr, State.begun]
  | some f => simp [exec_updateOf hu, updateOp, hf, hn f hf, beginUpdate_eq, hr, State.begun]

theorem exec_begins {i : Instr} {u : Update} {s : State} (hu : updateOf i s.port.command = some u)
    (hr : u.reg.implemented s.build = true) (hn : s.inflightOf s.port.requester = none) :
    exec i s = .next (s.begun i u) :=
  exec_begins_of_ne hu hr (by simp [hn])

/-- Step 2: this operation is in flight for the requester, so it writes. -/
theorem exec_finishes {i : Instr} {u : Update} {f : Inflight} {s : State} (hu : updateOf i s.port.command = some u)
    (hr : u.reg.implemented s.build = true) (hf : s.inflightOf s.port.requester = some f) (hop : f.op = i) :
    exec i s = .next (s.updated u f.word) := by
  simp [exec_updateOf hu, updateOp, hf, hop, finishUpdate_eq, hr, State.updated]

/-- A read-modify-write that answers a next state answers that of step 1 or that of step 2. -/
theorem updateOp_begun_or_updated {i : Instr} {u : Update} {s t : State}
    (h : updateOp i u.reg u.high u.low u.value s = .next t) :
    u.reg.implemented s.build = true ∧
    (t = s.begun i u ∨ ∃ f, s.inflightOf s.port.requester = some f ∧ f.op = i ∧ t = s.updated u f.word) :=
  updateOp_next h

/-! ## An operation taken whole -/

/-- A read-modify-write taken whole is its step 1 and then its step 2. -/
theorem wholeOp_updateOf {i : Instr} {u : Update} {s : State} (hu : updateOf i s.port.command = some u)
    (hr : u.reg.implemented s.build = true) (hn : s.inflightOf s.port.requester = none) :
    wholeOp i s = .next ((s.begun i u).updated u (s.stored u.reg)) := by
  have h1 : exec i s = .next (s.begun i u) := exec_begins hu hr hn
  have h2 : exec i (s.begun i u) = .next ((s.begun i u).updated u (s.stored u.reg)) :=
    exec_finishes (f := ⟨i, s.port.command, s.stored u.reg⟩) hu hr (s.begun_inflightOf_same i u) rfl
  simp [wholeOp, h1, h2]

/-- A read-modify-write that completes, taken whole, had its register. -/
theorem wholeOp_implemented {i : Instr} {u : Update} {s t : State} (hu : updateOf i s.port.command = some u)
    (h : wholeOp i s = .next t) : u.reg.implemented s.build = true := by
  unfold wholeOp at h
  split at h
  next t' hx => exact (updateOp_next ((exec_updateOf hu).symm.trans hx)).1
  next => cases h
  next => cases h

/-- An operation taken whole runs once or twice. -/
theorem wholeOp_next {i : Instr} {s t : State} (h : wholeOp i s = .next t) :
    exec i s = .next t ∨ ∃ m, exec i s = .next m ∧ exec i m = .next t := by
  unfold wholeOp at h
  split at h
  next m hx =>
    split at h
    · exact .inr ⟨m, hx, h⟩
    · cases h; exact .inl hx
  next => cases h
  next => cases h

/-- What one transaction of an operation keeps, the operation taken whole keeps. -/
theorem wholeOp_keeps {α : Type} (F : State → α) {i : Instr} (hF : ∀ {s t}, exec i s = .next t → F t = F s)
    {s t : State} (h : wholeOp i s = .next t) : F t = F s := by
  obtain hx | ⟨m, hx, hx'⟩ := wholeOp_next h
  · exact hF hx
  · exact (hF hx').trans (hF hx)

/-! ## What one transaction of an operation keeps -/

/-- What is in flight changes only by the two transactions of a read-modify-write. -/
theorem exec_inflight {i : Instr} {s t : State} (hu : updateOf i s.port.command = none) (h : exec i s = .next t) :
    t.inflight = s.inflight := by
  obtain ⟨d, st, x, rfl, -⟩ | ⟨st, rfl, -⟩ | ⟨r, v, rfl, -⟩ | ⟨u, hu', -⟩ | ⟨sub, mode, v, -, rfl⟩ | ⟨-, rfl⟩ :=
    exec_next h
  · rfl
  · rfl
  · simp
  · rw [hu] at hu'; cases hu'
  · rfl
  · rfl

/-- An operation reaches only what its own requester has in flight. -/
theorem exec_inflightOf_other {i : Instr} {s t : State} {p : Nat} (hp : p ≠ s.port.requester)
    (h : exec i s = .next t) : t.inflightOf p = s.inflightOf p := by
  cases hu : updateOf i s.port.command with
  | none => exact congrArg (RegMap.get none · p) (exec_inflight hu h)
  | some u =>
    rw [exec_updateOf hu] at h
    obtain ⟨-, rfl | ⟨f, -, -, rfl⟩⟩ := updateOp_begun_or_updated h
    · exact s.begun_inflightOf_other i u hp
    · exact s.updated_inflightOf_other u f.word hp

/-- What an operation leaves to others: the port, `TCAUSE`, `TAKEN` but for the gate (R114), `MTVEC` but for its writer. -/
theorem exec_frame {i : Instr} {s t : State} (h : exec i s = .next t) :
    t.port = s.port ∧ t.tcause = s.tcause ∧ (t.taken ≠ s.taken → i = .take ∨ i = .steal) ∧
    (t.mtvec ≠ s.mtvec → ∃ sub mode, i = .mtvecWrite sub mode) := by
  obtain ⟨d, st, x, rfl, -⟩ | ⟨st, rfl, hg, -⟩ | ⟨r, v, rfl, -⟩ | ⟨u, -, hu⟩ | ⟨sub, mode, v, hm, rfl⟩ | ⟨-, rfl⟩ :=
    exec_next h
  · simp
  · simp [hg]
  · simp
  · obtain ⟨-, rfl | ⟨f, -, -, rfl⟩⟩ := updateOp_next hu <;> simp
  · exact ⟨rfl, rfl, fun ht => absurd rfl ht, fun _ => ⟨sub, mode, hm⟩⟩
  · simp

theorem exec_port {i : Instr} {s t : State} (h : exec i s = .next t) : t.port = s.port :=
  have ⟨hport, _⟩ := exec_frame h
  hport

theorem exec_tcause {i : Instr} {s t : State} (h : exec i s = .next t) : t.tcause = s.tcause :=
  have ⟨_, htcause, _⟩ := exec_frame h
  htcause

theorem exec_taken_ne {i : Instr} {s t : State} (h : exec i s = .next t) :
    t.taken ≠ s.taken → i = .take ∨ i = .steal :=
  have ⟨_, _, htaken, _⟩ := exec_frame h
  htaken

theorem exec_mtvec_ne {i : Instr} {s t : State} (h : exec i s = .next t) :
    t.mtvec ≠ s.mtvec → ∃ sub mode, i = .mtvecWrite sub mode :=
  have ⟨_, _, _, hmtvec⟩ := exec_frame h
  hmtvec

/-- The one-bit register that an operation writes (R120, R121, R124, R125). -/
def flagOf : Instr → Option Reg
  | .mask idx | .unmask idx => some (.en (index idx))
  | .pend idx | .unpend idx => some (.pend (index idx))
  | _ => none

theorem flagOf_eq_some {i : Instr} {r : Reg} (h : flagOf i = some r) :
    ∃ idx : BitVec 12, (r = .en idx.toNat ∧ (i = .mask idx ∨ i = .unmask idx)) ∨
      (r = .pend idx.toNat ∧ (i = .pend idx ∨ i = .unpend idx)) := by
  cases i with
  | mask idx => cases h; exact ⟨idx, .inl ⟨rfl, .inl rfl⟩⟩
  | unmask idx => cases h; exact ⟨idx, .inl ⟨rfl, .inr rfl⟩⟩
  | pend idx => cases h; exact ⟨idx, .inr ⟨rfl, .inl rfl⟩⟩
  | unpend idx => cases h; exact ⟨idx, .inr ⟨rfl, .inr rfl⟩⟩
  | _ => cases h

theorem flagOf_eq_none_of_updateOf {i : Instr} {c : Command} {u : Update} (h : updateOf i c = some u) :
    flagOf i = none := by
  cases i <;> cases h <;> rfl

/-- A register changes only by the flag writer of the register or by step 2 of an update of the register. -/
theorem exec_stored_ne {i : Instr} {s t : State} {r : Reg} (h : exec i s = .next t) (hne : t.stored r ≠ s.stored r) :
    flagOf i = some r ∨
    ∃ u f, updateOf i s.port.command = some u ∧ u.reg = r ∧ s.inflightOf s.port.requester = some f ∧ f.op = i := by
  obtain ⟨d, st, x, rfl, -⟩ | ⟨st, rfl, -⟩ | ⟨r', v, rfl, -, hi⟩ | ⟨u, hu, hx⟩ | ⟨sub, mode, v, -, rfl⟩ | ⟨-, rfl⟩ :=
    exec_next h
  · exact absurd (by cases r <;> rfl) hne
  · exact absurd (by cases r <;> rfl) hne
  · have hr : r = r' := by
      by_contra hr
      simp [stored_store_other s v hr] at hne
    subst hr
    obtain ⟨idx, rfl, rfl | rfl⟩ | ⟨idx, rfl, rfl | rfl⟩ := hi <;> exact .inl rfl
  · obtain ⟨-, rfl | ⟨f, hf, hop, rfl⟩⟩ := updateOp_begun_or_updated hx
    · exact absurd (s.begun_stored i u r) hne
    · have hr : r = u.reg := by
        by_contra hr
        exact hne ((s.updated_writesOnly u f.word).1 r hr)
      exact .inr ⟨u, f, hu, hr.symm, hf, hop⟩
  · exact absurd (csrWrite_stored s v r) hne
  · exact absurd (s.reply_stored .illegal 0 r) hne

end Sys2Proof.Machine
end

section
/-! The two transactions of an operation as steps, and what an operation taken whole changes (R20). -/

namespace Sys2Proof.Machine

@[simp] theorem State.opened_inflightOf (s : State) (m : List Move) (q : Nat) :
    (s.opened m).inflightOf q = s.inflightOf q := rfl
@[simp] theorem State.opened_programOf (s : State) (m : List Move) (q : Nat) :
    (s.opened m).programOf q = s.programOf q := rfl
@[simp] theorem State.opened_stored (s : State) (m : List Move) (r : Reg) : (s.opened m).stored r = s.stored r := by
  cases r <;> rfl

/-! ## Step 1 only reads -/

theorem State.begun_keepsRegisters (s : State) (i : Instr) (u : Update) : keepsRegisters s (s.begun i u) :=
  s.begun_stored i u

/-- Settles O15: `exec_begins` names the next state, which differs from `s` only in what is in flight. -/
theorem updatesReadFirst : Obligations.UpdatesReadFirst := by
  intro i u s hu hr hn
  have hregs : keepsRegisters s (s.begun i u) := s.begun_keepsRegisters i u
  exact ⟨s.begun i u, exec_begins hu hr hn, s.begun_inflightOf_same i u, fun _ hp => s.begun_inflightOf_other i u hp,
    rfl, hregs, keepsBytes_of_registers rfl hregs, ⟨rfl, rfl, rfl, rfl, rfl, rfl, rfl⟩, rfl⟩

/-! ## The steps of a requester -/

/-- Settles O39. The member `q` of `REQUESTERS` goes on with what it has in flight before its command list is looked at. -/
theorem stepGoesOnWithTheOperationInFlight : Obligations.StepGoesOnWithTheOperationInFlight := by
  intro s q f moves hs hq hf
  have hfetch : fetch s = .run f.op ((s.opened moves).present q f.command) := by
    simp [fetch_requester hs, fetchRequester, hq, hf]
  exact step_run hfetch

/-- The state at which requester `q` issues the command `c`: the schedule and its command list moved on, the outputs idle, the
command on the port. -/
def State.issued (s : State) (q : Nat) (c : Command) (rest : List Action) (m : List Move) : State :=
  ((s.opened m).setProgram q rest).present q c

theorem State.issued_stored (s : State) (q : Nat) (c : Command) (rest : List Action) (m : List Move) (r : Reg) :
    (s.issued q c rest m).stored r = s.stored r := by
  simp [State.issued]

/-- A requester with nothing in flight runs the command that its list begins with. -/
theorem step_issues {s : State} {q : Nat} {c : Command} {rest : List Action} {m : List Move} {i : Instr}
    (hs : s.schedule = .requester q :: m) (hq : q < s.build.requesters) (hn : s.inflightOf q = none)
    (hp : s.programOf q = .command c :: rest) (hd : decode s.build.clicSupport c.cmd = .ok i) :
    step s = exec i (s.issued q c rest m) := by
  have hfetch : fetch s = .run i (s.issued q c rest m) := by
    simp [fetch_requester hs, fetchRequester, hq, hn, fetchAction, hp, issue, hd, State.issued]
  exact step_run hfetch

/-- Going on with the command as it was issued leaves `A` as it is, which the port has cut to MXLEN bits before. -/
theorem State.begun_opened_present (s : State) (q : Nat) (c : Command) (rest : List Action) (m m' : List Move)
    (i : Instr) (u : Update) :
    ((((s.issued q c rest m').begun i u).opened m).present q (s.issued q c rest m').port.command) =
      (s.issued q c rest m).begun i u := by
  simp only [State.begun, State.issued_stored]
  simp [State.issued, State.opened, State.present, State.setProgram, State.setInflight]

/-- Settles O40. The first step leaves the operation in flight with the command that it was issued with, so the second
step runs it at the very state in which the operation taken whole goes on. -/
theorem twoStepsMakeTheWholeOperation : Obligations.TwoStepsMakeTheWholeOperation := by
  intro s q c rest moves i hs hq hn hp hd htwo hav
  obtain ⟨u, hu⟩ : ∃ u, updateOf i (s.issued q c rest moves).port.command = some u := by
    rw [← Option.isSome_iff_exists, updateOf_isSome, htwo]
  have hr : u.reg.implemented s.build = true := (updateOf_implemented s.build hu).trans hav
  have hwhole : wholeOp i (s.issued q c rest moves) =
      .next (((s.issued q c rest moves).begun i u).updated u ((s.issued q c rest moves).stored u.reg)) :=
    wholeOp_updateOf hu hr hn
  have hfirst : step s = .next ((s.issued q c rest (.requester q :: moves)).begun i u) :=
    (step_issues hs hq hn hp hd).trans (exec_begins hu hr hn)
  have hsecond : step ((s.issued q c rest (.requester q :: moves)).begun i u) =
      exec i ((s.issued q c rest moves).begun i u) := by
    rw [← s.begun_opened_present q c rest moves (.requester q :: moves) i u]
    exact stepGoesOnWithTheOperationInFlight ((s.issued q c rest (.requester q :: moves)).begun i u) q
      ⟨i, (s.issued q c rest (.requester q :: moves)).port.command, _⟩ moves rfl hq
      (State.begun_inflightOf_same _ i u)
  have hfinish : exec i ((s.issued q c rest moves).begun i u) =
      .next (((s.issued q c rest moves).begun i u).updated u ((s.issued q c rest moves).stored u.reg)) :=
    exec_finishes (f := ⟨i, (s.issued q c rest moves).port.command, (s.issued q c rest moves).stored u.reg⟩) hu hr
      (State.begun_inflightOf_same _ i u) rfl
  refine ⟨_, ?_, hwhole⟩
  simp [Host.Core.run, core, hfirst, hsecond, hfinish]

/-! ## Field isolation -/

/-- R104 (b): a bit outside the field is that of the word. -/
theorem writeBits_getLsbD_outside (word value : Word) {high low b : Nat} (hlh : low ≤ high) (hb : b < low ∨ high < b) :
    (writeBits word high low value).getLsbD b = word.getLsbD b := by
  have hmask : (fieldMask high low).getLsbD b = false := by
    have : ¬ (low ≤ b ∧ b - low < high - low + 1) := by omega
    simp [fieldMask, fieldWidth, BitVec.getLsbD_ofNat, Nat.testBit_shiftLeft, Nat.testBit_two_pow_sub_one]
    omega
  simp only [writeBits, BitVec.getLsbD_or, BitVec.getLsbD_and, BitVec.getLsbD_not, hmask]
  by_cases h32 : b < 32
  · simp [h32]
  · simp [BitVec.getLsbD_of_ge _ b (Nat.le_of_not_lt h32)]

/-- An operation of one transaction, taken whole, is that transaction. -/
theorem wholeOp_of_updateOf_none {i : Instr} {s t : State} (hu : updateOf i s.port.command = none)
    (hn : s.inflightOf s.port.requester = none) (h : wholeOp i s = .next t) : exec i s = .next t := by
  obtain hx | ⟨m, hx, hx'⟩ := wholeOp_next h
  · exact hx
  · have hm : m.inflightOf m.port.requester = none := by
      rw [exec_port hx]
      exact (congrArg (RegMap.get none · _) (exec_inflight hu hx)).trans hn
    simpa [wholeOp, hx, hm] using h

theorem wholeOp_keepsInflight {i : Instr} {s t : State} (hn : s.inflightOf s.port.requester = none)
    (h : wholeOp i s = .next t) : keepsInflight s t := by
  intro p
  cases hu : updateOf i s.port.command with
  | none =>
    exact congrArg (RegMap.get none · p) (exec_inflight hu (wholeOp_of_updateOf_none hu hn h))
  | some u =>
    rw [wholeOp_updateOf hu (wholeOp_implemented hu h) hn] at h
    cases h
    by_cases hp : p = s.port.requester
    · subst hp
      exact ((s.begun i u).updated_inflightOf_same u _).trans hn.symm
    · exact ((s.begun i u).updated_inflightOf_other u _ hp).trans (s.begun_inflightOf_other i u hp)

/-- The read-modify-write, taken whole, writes back the word that stood in the register with the one field replaced. -/
theorem wholeOp_stored_updated {i : Instr} {u : Update} {s t : State} (hu : updateOf i s.port.command = some u)
    (hn : s.inflightOf s.port.requester = none) (h : wholeOp i s = .next t) :
    t.stored u.reg = writeBits (s.stored u.reg) u.high u.low u.value := by
  rw [wholeOp_updateOf hu (wholeOp_implemented hu h) hn] at h
  cases h
  exact State.updated_stored_same hu _ _

/-- A register that the operation neither flags nor updates stands as before. -/
theorem exec_stored {i : Instr} {s t : State} {r : Reg} (hflag : flagOf i ≠ some r)
    (hupd : ∀ u, updateOf i s.port.command = some u → u.reg ≠ r) (h : exec i s = .next t) :
    t.stored r = s.stored r := by
  by_contra hne
  obtain hf | ⟨u, f, hu, hr, -⟩ := exec_stored_ne h hne
  · exact hflag hf
  · exact hupd u hu hr

theorem wholeOp_stored {i : Instr} {s t : State} {r : Reg} (hflag : flagOf i ≠ some r)
    (hupd : ∀ u, updateOf i s.port.command = some u → u.reg ≠ r) (h : wholeOp i s = .next t) :
    t.stored r = s.stored r := by
  obtain hx | ⟨m, hx, hx'⟩ := wholeOp_next h
  · exact exec_stored hflag hupd hx
  · have hport : m.port = s.port := exec_port hx
    exact (exec_stored hflag (by rwa [hport]) hx').trans (exec_stored hflag hupd hx)

theorem wholeOp_keepsRegistersBut_flag {i : Instr} {s t : State} {r : Reg} (hflag : flagOf i = some r)
    (h : wholeOp i s = .next t) : keepsRegistersBut r s t := by
  intro r' hr'
  refine wholeOp_stored (by simpa [hflag] using hr'.symm) (fun u hu => ?_) h
  cases hflag.symm.trans (flagOf_eq_none_of_updateOf hu)

/-- Settles O60. Registers change only as `wholeOp_stored` says, the field by `wholeOp_stored_updated`; what is outside the
register space is kept by each transaction. -/
theorem fieldIsolation : Obligations.FieldIsolation := by
  intro i s t hn h
  refine ⟨fun u hu => ⟨fun r hr => ?_, fun b hb => ?_⟩, fun idx hi r hr => ?_, fun idx hi r hr => ?_,
    fun hu hi r => ?_, fun hi => ?_, fun htake hsteal => ?_, wholeOp_keepsInflight hn h,
    wholeOp_keeps (·.build) exec_build h, wholeOp_keeps (·.tcause) exec_tcause h⟩
  · refine wholeOp_stored (by simp [flagOf_eq_none_of_updateOf hu]) (fun u' hu' => ?_) h
    cases hu.symm.trans hu'
    exact hr.symm
  · rw [wholeOp_stored_updated hu hn h]
    exact writeBits_getLsbD_outside _ _ (updateOf_low_le_high hu) hb
  · have hflag : flagOf i = some (.en idx.toNat) := by obtain rfl | rfl := hi <;> rfl
    exact wholeOp_keepsRegistersBut_flag hflag h r hr
  · have hflag : flagOf i = some (.pend idx.toNat) := by obtain rfl | rfl := hi <;> rfl
    exact wholeOp_keepsRegistersBut_flag hflag h r hr
  · refine wholeOp_stored (fun hflag => ?_) (by simp [hu]) h
    obtain ⟨idx, ⟨-, rfl | rfl⟩ | ⟨-, rfl | rfl⟩⟩ := flagOf_eq_some hflag <;> simpa using hi idx
  · refine wholeOp_keeps (·.mtvec) (fun hx => ?_) h
    by_contra hne
    obtain ⟨sub, mode, rfl⟩ := exec_mtvec_ne hx hne
    exact hi sub mode rfl
  · refine wholeOp_keeps (·.taken) (fun hx => ?_) h
    by_contra hne
    exact (exec_taken_ne hx hne).elim htake hsteal

end Sys2Proof.Machine
end

section
/-! Who writes what: the steps after which a register of the block differs (R13, R16 to R19, R21, R23, R24). -/

namespace Sys2Proof.Machine

/-- The six two-transaction operations by the register that they update (R240). -/
theorem updateOf_eq_some {i : Instr} {c : Command} {u : Update} (h : updateOf i c = some u) :
    (u.reg = .cfg ∧ (i = .setModeBitWidth ∨ i = .setLevelBitWidth)) ∨
    ∃ idx : BitVec 12,
      (u.reg = .attr idx.toNat ∧ (i = .enableShv idx ∨ i = .disableShv idx ∨ ∃ trig, i = .setTrig idx trig)) ∨
      (u.reg = .ctl idx.toNat ∧ ∃ value, i = .setPriority idx value) := by
  cases i with
  | setModeBitWidth => cases h; exact .inl ⟨rfl, .inl rfl⟩
  | setLevelBitWidth => cases h; exact .inl ⟨rfl, .inr rfl⟩
  | enableShv idx => cases h; exact .inr ⟨idx, .inl ⟨rfl, .inl rfl⟩⟩
  | disableShv idx => cases h; exact .inr ⟨idx, .inl ⟨rfl, .inr (.inl rfl)⟩⟩
  | setTrig idx trig => cases h; exact .inr ⟨idx, .inl ⟨rfl, .inr (.inr ⟨trig, rfl⟩)⟩⟩
  | setPriority idx value => cases h; exact .inr ⟨idx, .inr ⟨rfl, value, rfl⟩⟩
  | _ => cases h

/-! ## What a step does to the state of the block -/

/-- The state of the block, what is in flight apart, stands as before: every register, `MTVEC`, `TAKEN` and the input `TCAUSE`. -/
def keepsState (s u : State) : Prop :=
  keepsRegisters s u ∧ u.mtvec = s.mtvec ∧ u.taken = s.taken ∧ u.tcause = s.tcause

/-- The next step is a requester's raw write transaction on the CSR port (R50, R246). -/
def State.writesCsr (s : State) : Prop :=
  ∃ (q : Nat) (v : MWord) (moves : List Move) (rest : List Action), s.schedule = .requester q :: moves ∧
    s.inflightOf q = none ∧ s.programOf q = .csrWrite v :: rest

theorem keepsState_opened (s : State) (m : List Move) : keepsState s (s.opened m) :=
  ⟨s.opened_stored m, rfl, rfl, rfl⟩

theorem keepsState_opened_setProgram (s : State) (m : List Move) (q : Nat) (p : List Action) :
    keepsState s ((s.opened m).setProgram q p) :=
  ⟨fun r => by simp, rfl, rfl, rfl⟩

/-- Every step, by what it does to the state of the block: nothing; a move of the environment; a transaction of an operation,
which is step 2 only where the operation was in flight; a raw write on one of the two ports. -/
theorem step_effect {s t : State} (h : step s = .next t) :
    keepsState s t ∨
    (∃ v m, s.schedule = .tcause v :: m ∧ t = envTcause v (s.opened m)) ∨
    (∃ i b m, s.schedule = .pending i b :: m ∧ t = envPending i b (s.opened m)) ∨
    (∃ i u, fetch s = .run i u ∧ exec i u = .next t ∧ keepsState s u ∧
      ∀ f, u.inflightOf u.port.requester = some f → s.finishes f.op) ∨
    (∃ r v u, s.writesRaw r ∧ keepsState s u ∧ t = u.store r v) ∨
    (∃ v u, s.writesCsr ∧ keepsState s u ∧ t = csrWrite u v) := by
  obtain ⟨-, rfl⟩ | ⟨v, m, hs, rfl⟩ | ⟨i, b, m, hs, rfl⟩ | ⟨q, m, hs, hq⟩ := step_cases h
  · exact .inl (keepsState_opened s s.schedule)
  · exact .inr (.inl ⟨v, m, hs, rfl⟩)
  · exact .inr (.inr (.inl ⟨i, b, m, hs, rfl⟩))
  · obtain rfl | ⟨f, hlt, hf, hfetch, hx⟩ | ⟨-, hn, rest, ha⟩ := hq
    · exact .inl (keepsState_opened s m)
    · refine .inr (.inr (.inr (.inl ⟨f.op, _, hfetch, hx, ⟨fun r => by simp, rfl, rfl, rfl⟩, fun f' hf' => ?_⟩)))
      exact ⟨q, f', m, hs, hlt, hf', rfl⟩
    · obtain ⟨c, i, -, -, hfetch, hx⟩ | ⟨c, e, -, -, rfl⟩ | ⟨addr, n, -, hr⟩ | ⟨addr, n, v, hp, hw⟩ | ⟨-, rfl⟩ |
        ⟨v, hp, rfl⟩ := ha
      · refine .inr (.inr (.inr (.inl ⟨i, _, hfetch, hx, ⟨fun r => by simp, rfl, rfl, rfl⟩, fun f' hf' => ?_⟩)))
        exact absurd (hf'.symm.trans hn) (by simp)
      · exact .inl ⟨fun r => by simp [replyIllegal], rfl, rfl, rfl⟩
      · obtain ⟨r, -, rfl⟩ := memRead_next hr
        exact .inl (keepsState_opened_setProgram s m q rest)
      · obtain ⟨r, hloc, rfl⟩ := memWrite_next hw
        exact .inr (.inr (.inr (.inr (.inl ⟨r, v, _, ⟨q, addr, n, v, m, rest, hs, hn, hp, hloc⟩,
          keepsState_opened_setProgram s m q rest, rfl⟩))))
      · exact .inl (keepsState_opened_setProgram s m q rest)
      · exact .inr (.inr (.inr (.inr (.inr ⟨v, _, ⟨q, v, m, rest, hs, hn, hp⟩,
          keepsState_opened_setProgram s m q rest, rfl⟩))))

/-! ## The registers of the register space -/

/-- The interrupt source reaches `P[i]` alone, and only under `HW_PEND` (R27). -/
theorem envPending_stored_ne {i : Nat} {b : Bool} {s : State} {r : Reg} (h : (envPending i b s).stored r ≠ s.stored r) :
    s.build.hwPend = true ∧ r = .pend i := by
  unfold envPending at h
  split at h
  next hc =>
    refine ⟨(Bool.and_eq_true_iff.1 hc).1, ?_⟩
    by_contra hr
    refine h ?_
    cases r with
    | pend j => simp_all [State.stored, State.pending, RegMap.get_set]
    | _ => rfl
  next => exact absurd rfl h

/-- A register of the register space changes only by the interrupt source, by its flag writer, by step 2 of an update of it,
or by a raw write to it. -/
theorem step_stored_ne {s t : State} {r : Reg} (h : step s = .next t) (hne : t.stored r ≠ s.stored r) :
    (s.build.hwPend = true ∧ ∃ i, r = .pend i) ∨
    (∃ i u, fetch s = .run i u ∧ flagOf i = some r) ∨
    (∃ i c u, s.finishes i ∧ updateOf i c = some u ∧ u.reg = r) ∨
    s.writesRaw r := by
  obtain hk | ⟨v, m, -, rfl⟩ | ⟨i, b, m, -, rfl⟩ | ⟨i, u, hfetch, hx, hk, hfin⟩ | ⟨r', v, u, hw, hk, rfl⟩ |
    ⟨v, u, -, hk, rfl⟩ := step_effect h
  · exact absurd (hk.1 r) hne
  · simp at hne
  · rw [← s.opened_stored m] at hne
    obtain ⟨hhw, hr⟩ := envPending_stored_ne hne
    exact .inl ⟨hhw, i, hr⟩
  · rw [← hk.1 r] at hne
    obtain hflag | ⟨up, f, hu, hr, hf, rfl⟩ := exec_stored_ne hx hne
    · exact .inr (.inl ⟨i, u, hfetch, hflag⟩)
    · exact .inr (.inr (.inl ⟨f.op, _, up, hfin f hf, hu, hr⟩))
  · rw [← hk.1 r] at hne
    have hr : r = r' := by
      by_contra hr
      exact hne (stored_store_other u v hr)
    exact .inr (.inr (.inr (hr ▸ hw)))
  · exact absurd (hk.1 r) (by simpa using hne)

theorem flagWord_injective : Function.Injective flagWord := by decide

theorem stored_pend_ne {s t : State} {j : Nat} (h : t.pending j ≠ s.pending j) :
    t.stored (.pend j) ≠ s.stored (.pend j) := flagWord_injective.ne h

theorem stored_en_ne {s t : State} {j : Nat} (h : t.enabled j ≠ s.enabled j) :
    t.stored (.en j) ≠ s.stored (.en j) := flagWord_injective.ne h

/-- Settles O58: of the writers of `step_stored_ne`, the interrupt source is not there and no update reaches `pending`. -/
theorem pendingChangesOnlyByItsWriters : Obligations.PendingChangesOnlyByItsWriters := by
  intro s t j hhw h hne
  obtain ⟨hhw', -⟩ | ⟨i, u, hfetch, hflag⟩ | ⟨i, c, u, -, hu, hr⟩ | hw := step_stored_ne h (stored_pend_ne hne)
  · simp [hhw] at hhw'
  · obtain ⟨idx, ⟨hr, -⟩ | ⟨hr, hi⟩⟩ := flagOf_eq_some hflag
    · cases hr
    · cases hr
      exact .inl ⟨idx, u, rfl, by obtain rfl | rfl := hi <;> simp [hfetch]⟩
  · obtain ⟨hreg, -⟩ | ⟨idx, ⟨hreg, -⟩ | ⟨hreg, -⟩⟩ := updateOf_eq_some hu <;> cases hr.symm.trans hreg
  · exact .inr hw

/-! ## The registers outside the register space -/

theorem step_mtvec_ne {s t : State} (h : step s = .next t) (hne : t.mtvec ≠ s.mtvec) :
    (∃ sub mode u, fetch s = .run (.mtvecWrite sub mode) u) ∨ s.writesCsr := by
  obtain ⟨-, hm, -⟩ | ⟨v, m, -, rfl⟩ | ⟨i, b, m, -, rfl⟩ | ⟨i, u, hfetch, hx, ⟨-, hm, -⟩, -⟩ |
    ⟨r, v, u, -, ⟨-, hm, -⟩, rfl⟩ | ⟨v, u, hw, -, -⟩ := step_effect h
  · exact absurd hm hne
  · exact absurd rfl hne
  · simp [State.opened] at hne
  · obtain ⟨sub, mode, rfl⟩ := exec_mtvec_ne hx (hm ▸ hne)
    exact .inl ⟨sub, mode, u, hfetch⟩
  · simp [hm] at hne
  · exact .inr hw

theorem step_taken_ne {s t : State} (h : step s = .next t) (hne : t.taken ≠ s.taken) :
    ∃ u, fetch s = .run .take u ∨ fetch s = .run .steal u := by
  obtain ⟨-, -, hm, -⟩ | ⟨v, m, -, rfl⟩ | ⟨i, b, m, -, rfl⟩ | ⟨i, u, hfetch, hx, ⟨-, -, hm, -⟩, -⟩ |
    ⟨r, v, u, -, ⟨-, -, hm, -⟩, rfl⟩ | ⟨v, u, -, ⟨-, -, hm, -⟩, rfl⟩ := step_effect h
  · exact absurd hm hne
  · exact absurd rfl hne
  · simp [State.opened] at hne
  · exact ⟨u, by obtain rfl | rfl := exec_taken_ne hx (hm ▸ hne) <;> simp [hfetch]⟩
  · simp [hm] at hne
  · exact absurd hm hne

theorem step_tcause_ne {s t : State} (h : step s = .next t) (hne : t.tcause ≠ s.tcause) :
    ∃ v m, s.schedule = .tcause v :: m := by
  obtain ⟨-, -, -, hm⟩ | ⟨v, m, hs, -⟩ | ⟨i, b, m, -, rfl⟩ | ⟨i, u, -, hx, ⟨-, -, -, hm⟩, -⟩ |
    ⟨r, v, u, -, ⟨-, -, -, hm⟩, rfl⟩ | ⟨v, u, -, ⟨-, -, -, hm⟩, rfl⟩ := step_effect h
  · exact absurd hm hne
  · exact ⟨v, m, hs⟩
  · simp [State.opened] at hne
  · exact absurd ((exec_tcause hx).trans hm) hne
  · simp [hm] at hne
  · exact absurd hm hne

/-- Settles O59: each register of the register space by `step_stored_ne`, the others by their own lemmas. -/
theorem onlyTheirWritersChangeTheOtherRegisters : Obligations.OnlyTheirWritersChangeTheOtherRegisters := by
  intro s t h
  refine ⟨fun hne => ?_, fun j hne => ?_, fun j hne => ?_, fun j hne => ?_, step_mtvec_ne h, step_taken_ne h,
    step_tcause_ne h⟩
  · obtain ⟨-, i, hr⟩ | ⟨i, u, -, hflag⟩ | ⟨i, c, u, hfin, hu, hr⟩ | hw := step_stored_ne (r := .cfg) h hne
    · cases hr
    · obtain ⟨idx, ⟨hr, -⟩ | ⟨hr, -⟩⟩ := flagOf_eq_some hflag <;> cases hr
    · obtain ⟨-, rfl | rfl⟩ | ⟨idx, ⟨hreg, -⟩ | ⟨hreg, -⟩⟩ := updateOf_eq_some hu
      · exact .inl hfin
      · exact .inr (.inl hfin)
      · cases hr.symm.trans hreg
      · cases hr.symm.trans hreg
    · exact .inr (.inr hw)
  · obtain ⟨-, i, hr⟩ | ⟨i, u, hfetch, hflag⟩ | ⟨i, c, u, -, hu, hr⟩ | hw := step_stored_ne h (stored_en_ne hne)
    · cases hr
    · obtain ⟨idx, ⟨hr, hi⟩ | ⟨hr, -⟩⟩ := flagOf_eq_some hflag
      · cases hr
        exact .inl ⟨idx, u, rfl, by obtain rfl | rfl := hi <;> simp [hfetch]⟩
      · cases hr
    · obtain ⟨hreg, -⟩ | ⟨idx, ⟨hreg, -⟩ | ⟨hreg, -⟩⟩ := updateOf_eq_some hu <;> cases hr.symm.trans hreg
    · exact .inr hw
  · obtain ⟨-, i, hr⟩ | ⟨i, u, -, hflag⟩ | ⟨i, c, u, hfin, hu, hr⟩ | hw := step_stored_ne (r := .attr j) h hne
    · cases hr
    · obtain ⟨idx, ⟨hr, -⟩ | ⟨hr, -⟩⟩ := flagOf_eq_some hflag <;> cases hr
    · obtain ⟨hreg, -⟩ | ⟨idx, ⟨hreg, hi⟩ | ⟨hreg, -⟩⟩ := updateOf_eq_some hu
      · cases hr.symm.trans hreg
      · cases hr.symm.trans hreg
        refine .inl ⟨idx, rfl, ?_⟩
        obtain rfl | rfl | ⟨trig, rfl⟩ := hi
        · exact .inl hfin
        · exact .inr (.inl hfin)
        · exact .inr (.inr ⟨trig, hfin⟩)
      · cases hr.symm.trans hreg
    · exact .inr hw
  · obtain ⟨-, i, hr⟩ | ⟨i, u, -, hflag⟩ | ⟨i, c, u, hfin, hu, hr⟩ | hw := step_stored_ne (r := .ctl j) h hne
    · cases hr
    · obtain ⟨idx, ⟨hr, -⟩ | ⟨hr, -⟩⟩ := flagOf_eq_some hflag <;> cases hr
    · obtain ⟨hreg, -⟩ | ⟨idx, ⟨hreg, -⟩ | ⟨hreg, value, rfl⟩⟩ := updateOf_eq_some hu
      · cases hr.symm.trans hreg
      · cases hr.symm.trans hreg
      · cases hr.symm.trans hreg
        exact .inl ⟨idx, rfl, value, hfin⟩
    · exact .inr hw

end Sys2Proof.Machine
end

section
/-! The invariant of the state (R5, R15, R25, R75): reset establishes it and every step keeps it. -/

namespace Sys2Proof.Machine

/-! ## Words of MXLEN bits -/

theorem fitsM_iff {m : Mxlen} {w : MWord} : fitsM m w = true ↔ w.toNat < 2 ^ mxlenBits m := by
  rw [fitsM, beq_iff_eq, ← BitVec.toNat_inj, truncM_toNat, Nat.mod_eq_iff_lt (by positivity)]

theorem fitsM_truncM (m : Mxlen) (w : MWord) : fitsM m (truncM m w) = true := by
  simp [fitsM]

/-- A result of at most 32 bits fits the port of either width. -/
theorem fitsM_setWidth {n : Nat} (m : Mxlen) (w : BitVec n) (hn : n ≤ 32) : fitsM m (w.setWidth 64) = true := by
  have hw : (w.setWidth 64).toNat < 2 ^ 32 := calc
    (w.setWidth 64).toNat ≤ w.toNat := by simpa using Nat.mod_le _ _
    _ < 2 ^ n := w.isLt
    _ ≤ 2 ^ 32 := Nat.pow_le_pow_right (by decide) hn
  have hm : 2 ^ 32 ≤ 2 ^ mxlenBits m := Nat.pow_le_pow_right (by decide) (by cases m <;> decide)
  exact fitsM_iff.2 (hw.trans_le hm)

theorem fitsM_zero (m : Mxlen) : fitsM m 0 = true := by cases m <;> decide

theorem fitsM_wordResult (m : Mxlen) (w : Word) : fitsM m (wordResult w) = true := fitsM_setWidth m w (by decide)

theorem fitsM_boolResult (m : Mxlen) (b : Bool) : fitsM m (boolResult b) = true := by
  cases m <;> cases b <;> decide

/-! ## What keeps the invariant -/

section
variable {s : State}

theorem inv_opened (h : s.Inv) (m : List Move) : (s.opened m).Inv := by
  obtain ⟨hb, hr, hm, hf, hp, -⟩ := h
  exact ⟨hb, hr, hm, hf, hp, rfl⟩

theorem inv_reply (h : s.Inv) (st : Status) {x : MWord} (hx : fitsM s.build.mxlen x = true) : (s.reply st x).Inv := by
  obtain ⟨hb, hr, hm, hf, hp, -⟩ := h
  exact ⟨hb, hr, hm, hf, hp, hx⟩

theorem inv_store (h : s.Inv) {r : Reg} (hr : r.implemented s.build = true) (v : Word) : (s.store r v).Inv := by
  obtain ⟨hb, hregs, hm, hf, hp, ho⟩ := h
  have hregs' : (s.store r v).registersOk := store_registersOk v hr hregs
  exact ⟨by simpa using hb, hregs', by simpa using hm, by simpa using hf, by simpa using hp, by simpa using ho⟩

theorem inv_csrWrite (h : s.Inv) (v : MWord) : (csrWrite s v).Inv := by
  obtain ⟨hb, hr, ⟨-, hc, ha⟩, hf, hp, ho⟩ := h
  exact ⟨hb, hr, ⟨fitsM_truncM _ v, hc, ha⟩, hf, hp, ho⟩

theorem inv_envTcause (h : s.Inv) (v : MWord) : (envTcause v s).Inv := by
  obtain ⟨hb, hr, ⟨hm, -, ha⟩, hf, hp, ho⟩ := h
  exact ⟨hb, hr, ⟨hm, fitsM_truncM _ v, ha⟩, hf, hp, ho⟩

theorem inv_envPending (h : s.Inv) (i : Nat) (b : Bool) : (envPending i b s).Inv := by
  obtain ⟨hb, hregs, hm, hf, hp, ho⟩ := h
  have hregs' : (envPending i b s).registersOk := envPending_registersOk i b hregs
  exact ⟨by simpa using hb, hregs', by simpa using hm, by simpa using hf, by simpa using hp, by simpa using ho⟩

theorem inv_present (h : s.Inv) (q : Nat) (c : Command) : (s.present q c).Inv := by
  obtain ⟨hb, hr, ⟨hm, hc, -⟩, hf, hp, ho⟩ := h
  exact ⟨hb, hr, ⟨hm, hc, fitsM_truncM _ c.a⟩, hf, hp, ho⟩

theorem inv_setProgram (h : s.Inv) (q : Nat) (p : List Action) : (s.setProgram q p).Inv := by
  obtain ⟨hb, hr, hm, hf, hp, ho⟩ := h
  exact ⟨hb, hr, hm, hf, RegMap.wf_set _ _ _ _ hp, ho⟩

theorem inv_setInflight (h : s.Inv) {q : Nat} (hq : q < s.build.requesters) {f : Option Inflight}
    (hok : inflightOk s.build f = true) : (s.setInflight q f).Inv := by
  obtain ⟨hb, hr, hm, ⟨hw, hlt, hall⟩, hp, ho⟩ := h
  exact ⟨hb, hr, hm, ⟨RegMap.wf_set _ _ _ _ hw, RegMap.below_set _ _ _ _ _ hlt hq, RegMap.all_set _ _ _ _ _ hall hok⟩,
    hp, ho⟩

theorem inv_rawCsrRead (h : s.Inv) (q : Nat) : (rawCsrRead q s).Inv := by
  obtain ⟨hb, hr, hm, hf, hp, -⟩ := h
  exact ⟨hb, hr, hm, hf, hp, fitsM_truncM _ s.mtvec⟩

theorem inv_memRead (h : s.Inv) {q addr n : Nat} {t : State} (hx : memRead q addr n s = .next t) : t.Inv := by
  obtain ⟨hb, hr, hm, hf, hp, -⟩ := h
  obtain ⟨r, -, rfl⟩ := memRead_next hx
  exact ⟨hb, hr, hm, hf, hp, rfl⟩

theorem inv_memWrite (h : s.Inv) {addr n : Nat} {v : Word} {t : State} (hx : memWrite addr n v s = .next t) : t.Inv := by
  obtain ⟨r, hr, rfl⟩ := memWrite_next hx
  exact inv_store h (locate_implemented hr) v

/-- Step 1 puts an operation in flight that has two transactions, on a register that is there. -/
theorem inv_begun (h : s.Inv) (hq : s.port.requester < s.build.requesters) {i : Instr} {u : Update}
    (hu : updateOf i s.port.command = some u) (hr : u.reg.implemented s.build = true) : (s.begun i u).Inv := by
  refine inv_setInflight h hq ?_
  obtain ⟨-, -, ⟨-, -, ha⟩, -⟩ := h
  have htwo : twoStep i = true := by rw [← updateOf_isSome i s.port.command, hu]; rfl
  have hav : available s.build i = true := (updateOf_implemented s.build hu).symm.trans hr
  simp [inflightOk, htwo, hav, ha]

theorem inv_updated (h : s.Inv) (hq : s.port.requester < s.build.requesters) {u : Update}
    (hr : u.reg.implemented s.build = true) (w : Word) : (s.updated u w).Inv :=
  inv_reply (inv_setInflight (inv_store h hr _) (by simpa using hq) rfl) .ok (fitsM_zero _)

end

/-! ## Operations and steps -/

/-- Every reply of an operation fits the port (R88). -/
theorem exec_outputOk {i : Instr} {s t : State} (ho : outputOk s.build.mxlen s.out = true) (h : exec i s = .next t) :
    outputOk s.build.mxlen t.out = true := by
  cases i with
  | readBits | writeBits =>
    simp only [exec, execReadBits, execWriteBits, codecOp] at h
    split at h <;> cases h <;> exact fitsM_wordResult _ _
  | take =>
    simp only [exec, execTake] at h
    split at h <;> cases h <;> exact fitsM_zero _
  | steal => cases h; exact fitsM_zero _
  | mask | unmask | pend | unpend =>
    simp only [exec, execMask, execUnmask, execPend, execUnpend, writeOp_eq] at h
    split at h <;> cases h
    exact fitsM_zero _
  | isEnabled | isPending | getPriority | getModeBitWidth | getLevelBitWidth | getNumInt | getPossibleLevelBits
  | getVersion | getMaxInterrupts =>
    simp only [exec, execIsEnabled, execIsPending, execGetPriority, execGetModeBitWidth, execGetLevelBitWidth,
      execGetNumInt, execGetPossibleLevelBits, execGetVersion, execGetMaxInterrupts, readOp_eq] at h
    split at h <;> cases h
    exact fitsM_wordResult _ _
  | hasInterruptVectoring =>
    simp only [exec, execHasInterruptVectoring, readOp_eq] at h
    split at h <;> cases h
    exact fitsM_boolResult _ _
  | isActive => cases h; exact fitsM_boolResult _ _
  | mtvecAddress => cases h; exact fitsM_truncM _ _
  | mtvecTrapMode =>
    simp only [exec, execMtvecTrapMode] at h
    split at h <;> cases h
    · exact fitsM_setWidth _ _ (by decide)
    · exact fitsM_zero _
  | mtvecSubMode =>
    simp only [exec, execMtvecSubMode] at h
    split at h
    · split at h <;> cases h
      · exact fitsM_setWidth _ _ (by decide)
      · exact fitsM_zero _
    · cases h; exact fitsM_zero _
  | mtvecWrite =>
    simp only [exec, execMtvecWrite] at h
    split at h <;> cases h <;> exact fitsM_zero _
  | setPriority | setTrig | enableShv | disableShv | setModeBitWidth | setLevelBitWidth =>
    obtain ⟨-, rfl | ⟨f, -, -, rfl⟩⟩ := updateOp_next h
    · exact ho
    · exact fitsM_zero _

/-- An operation of a member of `REQUESTERS` keeps the invariant. -/
theorem exec_inv {i : Instr} {s t : State} (hs : s.Inv) (hq : s.port.requester < s.build.requesters)
    (h : exec i s = .next t) : t.Inv := by
  obtain ⟨d, st, x, rfl, -⟩ | ⟨st, rfl, -⟩ | ⟨r, v, rfl, hr, -⟩ | ⟨u, hu, hx⟩ | ⟨sub, mode, v, -, rfl⟩ | ⟨-, rfl⟩ :=
    exec_next h
  · have ⟨_, _, _, _, _, ho⟩ := hs
    have hx : fitsM s.build.mxlen x = true := exec_outputOk ho h
    exact inv_reply (s := { s with draws := d }) hs st hx
  · exact inv_reply (s := { s with taken := true }) hs st (fitsM_zero _)
  · exact inv_reply (inv_store hs hr v) .ok (fitsM_zero _)
  · obtain ⟨hr, rfl | ⟨f, -, -, rfl⟩⟩ := updateOp_begun_or_updated hx
    · exact inv_begun hs hq hu hr
    · exact inv_updated hs hq hr f.word
  · exact inv_reply (inv_csrWrite hs v) .ok (fitsM_zero _)
  · exact inv_reply hs .illegal (fitsM_zero _)

/-- Settles O53, by the cases of a step: each is built of updates of the state that keep the invariant. -/
theorem everyStepKeepsTheInvariant : Obligations.EveryStepKeepsTheInvariant := by
  intro s t hs h
  obtain ⟨-, rfl⟩ | ⟨v, m, -, rfl⟩ | ⟨i, b, m, -, rfl⟩ | ⟨q, m, -, hq⟩ := step_cases h
  · exact inv_opened hs s.schedule
  · exact inv_envTcause (inv_opened hs m) v
  · exact inv_envPending (inv_opened hs m) i b
  · obtain rfl | ⟨f, hlt, -, -, hx⟩ | ⟨hlt, -, rest, ha⟩ := hq
    · exact inv_opened hs m
    · exact exec_inv (inv_present (inv_opened hs m) q f.command) hlt hx
    · have hu : ((s.opened m).setProgram q rest).Inv := inv_setProgram (inv_opened hs m) q rest
      obtain ⟨c, i, -, -, -, hx⟩ | ⟨c, e, -, -, rfl⟩ | ⟨addr, n, -, hr⟩ | ⟨addr, n, v, -, hw⟩ | ⟨-, rfl⟩ |
        ⟨v, -, rfl⟩ := ha
      · exact exec_inv (inv_present hu q c) hlt hx
      · exact inv_reply (inv_present hu q c) .illegal (fitsM_zero _)
      · exact inv_memRead hu hr
      · exact inv_memWrite hu hw
      · exact inv_rawCsrRead hu q
      · exact inv_csrWrite hu v

/-! ## Reset -/

/-- Settles O51. -/
theorem resetPutsTheStateAtItsParameters : Obligations.ResetPutsTheStateAtItsParameters := by
  intro b v
  exact ⟨State.resetWith b v, rfl, rfl, rfl, rfl, rfl, fun i => ⟨rfl, rfl, rfl, rfl⟩, fun q => rfl, rfl⟩

theorem resetWith_inv {b : Build} {v : ResetValues} (hb : b.wf = true) (hv : v.ok b) : (State.resetWith b v).Inv := by
  obtain ⟨hr, hm, hc⟩ := hv
  exact ⟨hb, hr, ⟨hm, hc, fitsM_zero _⟩, ⟨rfl, rfl, rfl⟩, rfl, rfl⟩

/-- Settles O52; `State.reset` is the reset state of `Build.standard` with zeros, which are values of their registers. -/
theorem resetEstablishesTheInvariant : Obligations.ResetEstablishesTheInvariant :=
  ⟨fun _ _ => resetWith_inv, resetWith_inv (by decide) ⟨reset_registersOk, by decide⟩⟩

end Sys2Proof.Machine
end

section
/-! The moves of the environment (R24, R27). -/

namespace Sys2Proof.Machine

/-- The interrupt source that the block has writes the one-bit register, as a raw write would. -/
theorem envPending_live {i : Nat} {s : State} (b : Bool) (hhw : s.build.hwPend = true) (hi : i < s.build.nInt) :
    envPending i b s = s.store (.pend i) (flagWord b) := by
  have hb : (flagWord b)[0] = b := by cases b <;> simp [flagWord]
  simp [envPending, hhw, hi, State.store, hb]

/-- A source that the block lacks, or a source of a missing control block, moves nothing (log entry 7). -/
theorem envPending_dead {i : Nat} {s : State} (b : Bool) (h : s.build.hwPend = false ∨ s.build.nInt ≤ i) :
    envPending i b s = s := by
  refine if_neg ?_
  simpa using fun hhw => h.resolve_left (by simp [hhw])

theorem step_tcause {s : State} {v : MWord} {m : List Move} (hs : s.schedule = .tcause v :: m) :
    step s = .next (envTcause v (s.opened m)) := step_done (fetch_tcause hs)

theorem step_pending {s : State} {i : Nat} {b : Bool} {m : List Move} (hs : s.schedule = .pending i b :: m) :
    step s = .next (envPending i b (s.opened m)) := step_done (fetch_pending hs)

/-- Settles O44. -/
theorem environmentMoves : Obligations.EnvironmentMoves := by
  intro s m
  refine ⟨fun v hs => ?_, fun i b hs hhw hi => ?_, fun i b hs hno => ?_⟩
  · have hregs : keepsRegisters s (envTcause v (s.opened m)) := fun r => by simp
    exact ⟨_, step_tcause hs, truncM_toNat _ v, rfl, hregs, keepsBytes_of_registers rfl hregs, rfl, rfl, rfl, rfl, rfl,
      rfl⟩
  · have hmove : step s = .next ((s.opened m).store (.pend i) (flagWord b)) := by
      rw [step_pending hs, envPending_live (s := s.opened m) b hhw hi]
    have hregs : keepsRegistersBut (.pend i) s ((s.opened m).store (.pend i) (flagWord b)) := fun r hr => by
      rw [stored_store_other _ _ hr, State.opened_stored]
    have hflag : ((s.opened m).store (.pend i) (flagWord b)).pending i = b := by
      cases b <;> simp [pending_store, flagWord]
    exact ⟨_, hmove, hflag, rfl, hregs, keepsBytesOutside_of_registers rfl hregs, rfl, rfl, rfl, rfl, rfl, rfl, rfl⟩
  · have hmove : step s = .next (s.opened m) := by
      rw [step_pending hs, envPending_dead (s := s.opened m) b hno]
    have hregs : keepsRegisters s (s.opened m) := s.opened_stored m
    exact ⟨_, hmove, rfl, hregs, keepsBytes_of_registers rfl hregs, rfl, rfl, rfl, rfl⟩

end Sys2Proof.Machine
end

section
/-! What a requester has in flight is its own (R25): the steps of the others neither reach it nor look at it. -/

namespace Sys2Proof.Machine

/-! ## The steps of the others leave it alone -/

theorem step_inflightOf_other {s t : State} {q : Nat} (hq : ∀ moves, s.schedule ≠ .requester q :: moves)
    (h : step s = .next t) : t.inflightOf q = s.inflightOf q := by
  obtain ⟨-, rfl⟩ | ⟨v, m, -, rfl⟩ | ⟨i, b, m, -, rfl⟩ | ⟨p, m, hs, hp⟩ := step_cases h
  · rfl
  · rfl
  · simp [State.inflightOf, State.opened]
  · have hpq : q ≠ p := by rintro rfl; exact hq m hs
    obtain rfl | ⟨f, -, -, -, hx⟩ | ⟨-, -, rest, ha⟩ := hp
    · rfl
    · exact exec_inflightOf_other (s := (s.opened m).present p f.command) hpq hx
    · obtain ⟨c, i, -, -, -, hx⟩ | ⟨c, e, -, -, rfl⟩ | ⟨addr, n, -, hr⟩ | ⟨addr, n, v, -, hw⟩ | ⟨-, rfl⟩ |
        ⟨v, -, rfl⟩ := ha
      · exact exec_inflightOf_other (s := ((s.opened m).setProgram p rest).present p c) hpq hx
      · rfl
      · obtain ⟨r, -, rfl⟩ := memRead_next hr
        rfl
      · obtain ⟨r, -, rfl⟩ := memWrite_next hw
        simp
      · rfl
      · rfl

/-! ## The steps of the others do not depend on it -/

/-- The state with other operations in flight. -/
def State.withInflight (s : State) (l : List (Nat × Option Inflight)) : State := { s with inflight := l }

@[simp] theorem State.withInflight_build (s : State) (l : List (Nat × Option Inflight)) :
    (s.withInflight l).build = s.build := rfl
@[simp] theorem State.withInflight_csrRead (s : State) (l : List (Nat × Option Inflight)) :
    csrRead (s.withInflight l) = csrRead s := rfl

/-- `u` is `s` but for what requester `q` has in flight. -/
def sameBut (q : Nat) (s u : State) : Prop :=
  ∃ l, u = s.withInflight l ∧ ∀ p, p ≠ q → RegMap.get none l p = s.inflightOf p

/-- Where `o` is a next state, so is `o'`, and the two states differ only in what `q` has in flight. -/
def simulates (q : Nat) (o o' : Host.Outcome State Fault Refusal) : Prop :=
  ∀ t, o = .next t → ∃ t', o' = .next t' ∧ sameBut q t t'

theorem simulates_next {q : Nat} {t t' : State} (h : sameBut q t t') : simulates q (.next t) (.next t') := by
  rintro _ ⟨⟩
  exact ⟨t', rfl, h⟩

section
variable {q : Nat} {s u : State}

theorem sameBut_setInflight_self (q : Nat) (s : State) (f : Option Inflight) : sameBut q s (s.setInflight q f) :=
  ⟨_, rfl, fun _ hp => s.setInflight_inflightOf_other f hp⟩

theorem sameBut.inflightOf (h : sameBut q s u) {p : Nat} (hp : p ≠ q) : u.inflightOf p = s.inflightOf p := by
  obtain ⟨l, rfl, hl⟩ := h
  exact hl p hp

theorem sameBut.stored (h : sameBut q s u) (r : Reg) : u.stored r = s.stored r := by
  obtain ⟨l, rfl, -⟩ := h
  cases r <;> rfl

theorem sameBut.port (h : sameBut q s u) : u.port = s.port := by
  obtain ⟨l, rfl, -⟩ := h
  rfl

theorem sameBut.build (h : sameBut q s u) : u.build = s.build := by
  obtain ⟨l, rfl, -⟩ := h
  rfl

theorem sameBut.opened (h : sameBut q s u) (m : List Move) : sameBut q (s.opened m) (u.opened m) := by
  obtain ⟨l, rfl, hl⟩ := h
  exact ⟨l, rfl, hl⟩

theorem sameBut.present (h : sameBut q s u) (p : Nat) (c : Command) : sameBut q (s.present p c) (u.present p c) := by
  obtain ⟨l, rfl, hl⟩ := h
  exact ⟨l, rfl, hl⟩

theorem sameBut.setProgram (h : sameBut q s u) (p : Nat) (a : List Action) :
    sameBut q (s.setProgram p a) (u.setProgram p a) := by
  obtain ⟨l, rfl, hl⟩ := h
  exact ⟨l, rfl, hl⟩

theorem sameBut.reply (h : sameBut q s u) (st : Status) (x : MWord) : sameBut q (s.reply st x) (u.reply st x) := by
  obtain ⟨l, rfl, hl⟩ := h
  exact ⟨l, rfl, hl⟩

theorem sameBut.store (h : sameBut q s u) (r : Reg) (v : Word) : sameBut q (s.store r v) (u.store r v) := by
  obtain ⟨l, rfl, hl⟩ := h
  exact ⟨l, by cases r <;> rfl, by simpa using hl⟩

theorem sameBut.setInflight (h : sameBut q s u) (p : Nat) (f : Option Inflight) :
    sameBut q (s.setInflight p f) (u.setInflight p f) := by
  obtain ⟨l, rfl, hl⟩ := h
  refine ⟨RegMap.set none l p f, rfl, fun p' hp' => ?_⟩
  simp only [State.inflightOf, State.setInflight, RegMap.get_set]
  rw [hl p' hp', State.inflightOf]

theorem sameBut.rawCsrRead (h : sameBut q s u) (p : Nat) : sameBut q (rawCsrRead p s) (rawCsrRead p u) := by
  obtain ⟨l, rfl, hl⟩ := h
  exact ⟨l, rfl, hl⟩

theorem sameBut.csrWrite (h : sameBut q s u) (v : MWord) : sameBut q (csrWrite s v) (csrWrite u v) := by
  obtain ⟨l, rfl, hl⟩ := h
  exact ⟨l, rfl, hl⟩

theorem sameBut.envTcause (h : sameBut q s u) (v : MWord) : sameBut q (envTcause v s) (envTcause v u) := by
  obtain ⟨l, rfl, hl⟩ := h
  exact ⟨l, rfl, hl⟩

theorem sameBut.envPending (h : sameBut q s u) (i : Nat) (b : Bool) : sameBut q (envPending i b s) (envPending i b u) := by
  by_cases hlive : s.build.hwPend = true ∧ i < s.build.nInt
  · obtain ⟨hhw, hi⟩ := hlive
    rw [envPending_live b hhw hi, envPending_live b (by rwa [h.build]) (by rwa [h.build])]
    exact h.store _ _
  · have hdead : s.build.hwPend = false ∨ s.build.nInt ≤ i := by
      rwa [not_and_or, Bool.not_eq_true, Nat.not_lt] at hlive
    rw [envPending_dead b hdead, envPending_dead b (by rwa [h.build])]
    exact h

theorem sameBut.begun (h : sameBut q s u) (i : Instr) (up : Update) : sameBut q (s.begun i up) (u.begun i up) := by
  simp only [State.begun, h.port, h.stored]
  exact h.setInflight _ _

theorem sameBut.updated (h : sameBut q s u) (up : Update) (w : Word) : sameBut q (s.updated up w) (u.updated up w) := by
  simp only [State.updated, h.port]
  exact ((h.store _ _).setInflight _ _).reply .ok 0

/-- An operation of one transaction does not look at what is in flight. -/
theorem exec_withInflight {i : Instr} {s t : State} (l : List (Nat × Option Inflight))
    (hu : updateOf i s.port.command = none) (h : exec i s = .next t) :
    exec i (s.withInflight l) = .next (t.withInflight l) := by
  cases i with
  | readBits | writeBits =>
    simp only [exec, execReadBits, execWriteBits, codecOp] at h ⊢
    split at h <;> cases h
    · exact if_pos ‹_›
    · exact if_neg ‹_›
  | take =>
    simp only [exec, execTake] at h ⊢
    split at h <;> cases h
    · exact if_pos ‹_›
    · exact if_neg ‹_›
  | steal | isActive | mtvecAddress => cases h; rfl
  | mask | unmask | pend | unpend =>
    simp only [exec, execMask, execUnmask, execPend, execUnpend, writeOp_eq] at h ⊢
    split at h <;> cases h
    exact if_pos ‹_›
  | isEnabled | isPending | getPriority | getModeBitWidth | getLevelBitWidth | hasInterruptVectoring | getNumInt
  | getPossibleLevelBits | getVersion | getMaxInterrupts =>
    simp only [exec, execIsEnabled, execIsPending, execGetPriority, execGetModeBitWidth, execGetLevelBitWidth,
      execHasInterruptVectoring, execGetNumInt, execGetPossibleLevelBits, execGetVersion, execGetMaxInterrupts,
      readOp_eq] at h ⊢
    split at h <;> cases h
    exact if_pos ‹_›
  | mtvecTrapMode =>
    simp only [exec, execMtvecTrapMode, State.withInflight_build, State.withInflight_csrRead] at h ⊢
    split at h <;> cases h <;> rfl
  | mtvecSubMode =>
    simp only [exec, execMtvecSubMode, State.withInflight_build, State.withInflight_csrRead] at h ⊢
    split at h
    · split at h <;> cases h <;> exact if_pos ‹_›
    · cases h; exact if_neg ‹_›
  | mtvecWrite =>
    simp only [exec, execMtvecWrite] at h ⊢
    split at h <;> cases h
    · exact if_pos ‹_›
    · exact if_neg ‹_›
  | setPriority | setTrig | enableShv | disableShv | setModeBitWidth | setLevelBitWidth => cases hu

/-- A transaction of another requester's operation. -/
theorem exec_simulates (h : sameBut q s u) (hq : s.port.requester ≠ q) (i : Instr) :
    simulates q (exec i s) (exec i u) := by
  intro t hx
  cases hup : updateOf i s.port.command with
  | none =>
    obtain ⟨l, rfl, hl⟩ := h
    refine ⟨_, exec_withInflight l hup hx, l, rfl, fun p hp => ?_⟩
    rw [hl p hp, State.inflightOf, State.inflightOf, exec_inflight hup hx]
  | some up =>
    have hr : up.reg.implemented s.build = true := (updateOp_next ((exec_updateOf hup).symm.trans hx)).1
    have hup' : updateOf i u.port.command = some up := by rw [h.port, hup]
    have hr' : up.reg.implemented u.build = true := by rw [h.build, hr]
    have hown : u.inflightOf u.port.requester = s.inflightOf s.port.requester := by rw [h.port, h.inflightOf hq]
    by_cases hf : ∃ f, s.inflightOf s.port.requester = some f ∧ f.op = i
    · obtain ⟨f, hf, hop⟩ := hf
      rw [exec_finishes hup hr hf hop] at hx
      cases hx
      exact ⟨_, exec_finishes hup' hr' (hown.trans hf) hop, h.updated up f.word⟩
    · have hn : ∀ f, s.inflightOf s.port.requester = some f → f.op ≠ i := fun f hf' hop => hf ⟨f, hf', hop⟩
      rw [exec_begins_of_ne hup hr hn] at hx
      cases hx
      exact ⟨_, exec_begins_of_ne hup' hr' (by rwa [hown]), h.begun i up⟩

theorem memRead_simulates (h : sameBut q s u) (p addr n : Nat) :
    simulates q (memRead p addr n s) (memRead p addr n u) := by
  intro t hx
  obtain ⟨l, rfl, hl⟩ := h
  obtain ⟨r, hloc, rfl⟩ := memRead_next hx
  refine ⟨_, ?_, l, rfl, hl⟩
  cases r <;> simp [memRead, State.withInflight, hloc] <;> rfl

theorem memWrite_simulates (h : sameBut q s u) (addr n : Nat) (v : Word) :
    simulates q (memWrite addr n v s) (memWrite addr n v u) := by
  intro t hx
  obtain ⟨r, hloc, rfl⟩ := memWrite_next hx
  refine ⟨u.store r v, ?_, h.store r v⟩
  simp [memWrite, h.build, hloc]

/-- What a fetched step answers. -/
def Fetched.outcome : Fetched → Host.Outcome State Fault Refusal
  | .run i s => exec i s
  | .done o => o

theorem step_eq_outcome (s : State) : step s = (fetch s).outcome := rfl

/-- The step of another requester. -/
theorem fetchRequester_simulates (h : sameBut q s u) {p : Nat} (hp : p ≠ q) :
    simulates q (fetchRequester p s).outcome (fetchRequester p u).outcome := by
  have hprog : u.programOf p = s.programOf p := by
    obtain ⟨l, rfl, -⟩ := h
    rfl
  by_cases hlt : p < s.build.requesters
  · cases hf : s.inflightOf p with
    | some f =>
      simp only [fetchRequester, h.build, hlt, h.inflightOf hp, hf, if_true, Fetched.outcome]
      exact exec_simulates (h.present p f.command) hp f.op
    | none =>
      simp only [fetchRequester, h.build, hlt, h.inflightOf hp, hf, if_true, fetchAction, hprog]
      cases hl : s.programOf p with
      | nil => exact simulates_next h
      | cons a rest =>
        have hset : sameBut q (s.setProgram p rest) (u.setProgram p rest) := h.setProgram p rest
        cases a with
        | command c =>
          simp only [issue, State.setProgram_build, h.build]
          cases decode s.build.clicSupport c.cmd with
          | ok i => exact exec_simulates (hset.present p c) hp i
          | error e => exact simulates_next ((hset.present p c).reply .illegal 0)
        | memRead addr n => exact memRead_simulates hset p addr n
        | memWrite addr n v => exact memWrite_simulates hset addr n v
        | csrRead => exact simulates_next (hset.rawCsrRead p)
        | csrWrite v => exact simulates_next (hset.csrWrite v)
  · simp only [fetchRequester, h.build, hlt, if_false]
    exact simulates_next h

/-- A step that is not `q`'s. -/
theorem step_simulates (h : sameBut q s u) (hq : ∀ moves, s.schedule ≠ .requester q :: moves) :
    simulates q (step s) (step u) := by
  have hsched : u.schedule = s.schedule := by
    obtain ⟨l, rfl, -⟩ := h
    rfl
  cases hs : s.schedule with
  | nil =>
    rw [step_done (fetch_nil hs), step_done (fetch_nil (hsched.trans hs))]
    obtain ⟨l, rfl, hl⟩ := h
    exact simulates_next ⟨l, rfl, hl⟩
  | cons mv m =>
    have hu : u.schedule = mv :: m := hsched.trans hs
    have hopen : sameBut q (s.opened m) (u.opened m) := h.opened m
    cases mv with
    | requester p =>
      have hp : p ≠ q := by rintro rfl; exact hq m hs
      rw [step_eq_outcome, step_eq_outcome, fetch_requester hs, fetch_requester hu]
      exact fetchRequester_simulates hopen hp
    | tcause v =>
      rw [step_tcause hs, step_tcause hu]
      exact simulates_next (hopen.envTcause v)
    | pending i b =>
      rw [step_pending hs, step_pending hu]
      exact simulates_next (hopen.envPending i b)

end

/-- Settles O42: `step_inflightOf_other` for both runs, and `step_simulates` for all else. -/
theorem inflightIsPrivate : Obligations.InflightIsPrivate := by
  intro s t q f hq h
  obtain ⟨u, hu, hsame⟩ := step_simulates (sameBut_setInflight_self q s f) hq t h
  have hown : u.inflightOf q = f :=
    (step_inflightOf_other (s := s.setInflight q f) hq hu).trans (s.setInflight_inflightOf_same q f)
  refine ⟨step_inflightOf_other hq h, u, hu, hown, fun p hp => hsame.inflightOf hp, hsame.stored, ?_⟩
  obtain ⟨l, rfl, -⟩ := hsame
  exact ⟨⟨rfl, rfl, rfl, rfl, rfl, rfl, rfl⟩, rfl, rfl⟩

end Sys2Proof.Machine
end

section
/-! The address decoder of the register port (R40 to R46): what stands at an address, and where a register stands. -/

namespace Sys2Proof.Machine

theorem Build.wf_iff {b : Build} :
    b.wf = true ↔ 1 ≤ b.nInt ∧ b.nInt ≤ 4096 ∧ 1 ≤ b.requesters ∧ b.clicBase % 4 = 0 := by
  simp [Build.wf, and_assoc]

/-! ## The order of the decoder's questions -/

/-- R42: width and alignment come first. -/
theorem locate_badTransaction {b : Build} {addr n : Nat} (h : n ≠ 4 ∨ addr % 4 ≠ 0) :
    locate b addr n = .refused .badTransaction := if_pos h

/-- R40: a word within the 0x11000 bytes from `CLIC_BASE` is looked up by its offset. -/
theorem locate_inside {b : Build} {off : Nat} (hb : b.clicBase % 4 = 0) (ha : off % 4 = 0) (hoff : off < 0x11000) :
    locate b (b.clicBase + off) 4 = locateOffset b off := by
  have hgood : ¬ (4 ≠ 4 ∨ (b.clicBase + off) % 4 ≠ 0) := by omega
  have hin : b.clicBase ≤ b.clicBase + off ∧ b.clicBase + off < b.clicBase + 0x11000 := by omega
  rw [locate, if_neg hgood, if_pos hin, Nat.add_sub_cancel_left]

/-- R215, U24: a word outside them is one of the SYST window or nothing. -/
theorem locate_outside {b : Build} {addr : Nat} (ha : addr % 4 = 0)
    (hout : addr < b.clicBase ∨ b.clicBase + 0x11000 ≤ addr) :
    locate b addr 4 =
      if b.systBase ≤ addr ∧ addr < b.systBase + 0x28 then .refused .systRegister else .fault .noSuchAddress := by
  have hgood : ¬ (4 ≠ 4 ∨ addr % 4 ≠ 0) := by omega
  have hin : ¬ (b.clicBase ≤ addr ∧ addr < b.clicBase + 0x11000) := by omega
  rw [locate, if_neg hgood, if_neg hin]

/-- A register is found only by a 4-byte transaction at a multiple of 4 in the register space. -/
theorem locate_reg {b : Build} {addr n : Nat} {r : Reg} (h : locate b addr n = .reg r) :
    n = 4 ∧ addr % 4 = 0 ∧ b.clicBase ≤ addr ∧ locateOffset b (addr - b.clicBase) = .reg r := by
  unfold locate at h
  split at h
  next => cases h
  next hgood =>
    split at h
    next hin => exact ⟨by omega, by omega, hin.1, h⟩
    next =>
      split at h
      · cases h
      · cases h

/-! ## The words of the register space -/

/-- R45. -/
theorem locateOffset_padding {b : Build} {off : Nat} (hlo : 8 ≤ off) (hhi : off < 0x1000) :
    locateOffset b off = .refused .reservedPadding := by
  have h4 : ¬ off < 4 := by omega
  have h8 : ¬ off < 8 := by omega
  simp [locateOffset, h4, h8, hhi]

/-- Word `k` of the control block `i`, in the order of R44. -/
def blockReg (i k : Nat) : Reg :=
  match k with
  | 0 => .pend i
  | 1 => .en i
  | 2 => .attr i
  | _ => .ctl i

theorem locateBlock_eq (b : Build) (off : Nat) :
    locateBlock b off =
      if (off - 0x1000) / 16 < b.nInt then .reg (blockReg ((off - 0x1000) / 16) ((off - 0x1000) % 16 / 4))
      else .refused .unimplementedBlock := by
  simp only [locateBlock]
  generalize (off - 0x1000) % 16 / 4 = k
  match k with
  | 0 => rfl
  | 1 => rfl
  | 2 => rfl
  | _ + 3 => rfl

/-- R44, R46: word `k` of the control block `i`, where the build has the block. -/
theorem locateOffset_block (b : Build) (i : Nat) {k : Nat} (hk : k < 4) :
    locateOffset b (0x1000 + 16 * i + 4 * k) =
      if i < b.nInt then .reg (blockReg i k) else .refused .unimplementedBlock := by
  have h4 : ¬ 0x1000 + 16 * i + 4 * k < 4 := by omega
  have h8 : ¬ 0x1000 + 16 * i + 4 * k < 8 := by omega
  have hpad : ¬ 0x1000 + 16 * i + 4 * k < 0x1000 := by omega
  have hblock : (0x1000 + 16 * i + 4 * k - 0x1000) / 16 = i := by omega
  have hword : (0x1000 + 16 * i + 4 * k - 0x1000) % 16 / 4 = k := by omega
  rw [locateOffset, if_neg h4, if_neg h8, if_neg hpad, locateBlock_eq, hblock, hword]

theorem locateOffset_block_implemented {b : Build} {i k : Nat} (hk : k < 4) (hi : i < b.nInt) :
    locateOffset b (0x1000 + 16 * i + 4 * k) = .reg (blockReg i k) :=
  (locateOffset_block b i hk).trans (if_pos hi)

/-- R44: at the offset of a register that the build has stands that register. -/
theorem locateOffset_offset {b : Build} {r : Reg} (h : r.implemented b = true) : locateOffset b r.offset = .reg r := by
  cases r with
  | cfg => rfl
  | info => rfl
  | pend i => exact locateOffset_block_implemented (k := 0) (by decide) (of_decide_eq_true h)
  | en i => exact locateOffset_block_implemented (k := 1) (by decide) (of_decide_eq_true h)
  | attr i => exact locateOffset_block_implemented (k := 2) (by decide) (of_decide_eq_true h)
  | ctl i => exact locateOffset_block_implemented (k := 3) (by decide) (of_decide_eq_true h)

theorem Reg.offset_aligned (r : Reg) : r.offset % 4 = 0 := by
  cases r <;> simp only [Reg.offset] <;> omega

/-- R5: with `N_INT` at most 4096 every register that the build has lies in the register space of R40. -/
theorem Reg.offset_lt {b : Build} {r : Reg} (hb : b.nInt ≤ 4096) (h : r.implemented b = true) : r.offset < 0x11000 := by
  cases r <;> simp only [Reg.implemented, decide_eq_true_eq] at h <;> simp only [Reg.offset] <;> omega

/-! ## Addresses and registers -/

/-- R44: a transaction reaches the register `r` exactly when it is of 4 bytes, at the address of `r`, and `r` is there. -/
theorem locate_eq_reg_iff {b : Build} {addr n : Nat} {r : Reg} (hb : b.wf = true) :
    locate b addr n = .reg r ↔ n = 4 ∧ addr = r.addr b ∧ r.implemented b = true := by
  obtain ⟨-, hn, -, hbase⟩ := Build.wf_iff.1 hb
  have halign : r.offset % 4 = 0 := r.offset_aligned
  constructor
  · intro h
    obtain ⟨h4, ha, hle, hoff⟩ := locate_reg h
    obtain ⟨hfrom, hto⟩ := locateOffset_contains hoff
    have haddr : addr = b.clicBase + r.offset := by omega
    exact ⟨h4, haddr, locate_implemented h⟩
  · rintro ⟨rfl, rfl, hr⟩
    exact (locate_inside hbase halign (Reg.offset_lt hn hr)).trans (locateOffset_offset hr)

theorem locate_addr {b : Build} {r : Reg} (hb : b.wf = true) (hr : r.implemented b = true) :
    locate b (r.addr b) 4 = .reg r := (locate_eq_reg_iff hb).2 ⟨rfl, rfl, hr⟩

theorem locate_padding {b : Build} {off : Nat} (hb : b.wf = true) (hlo : 8 ≤ off) (hhi : off < 0x1000)
    (ha : off % 4 = 0) : locate b (b.clicBase + off) 4 = .refused .reservedPadding := by
  obtain ⟨-, -, -, hbase⟩ := Build.wf_iff.1 hb
  exact (locate_inside hbase ha (by omega)).trans (locateOffset_padding hlo hhi)

/-- R46: the four words of a control block at or above `N_INT`. -/
theorem locate_unimplementedBlock {b : Build} {i k : Nat} (hb : b.wf = true) (hi : b.nInt ≤ i) (hmax : i < 4096)
    (hk : k < 4) : locate b (b.clicBase + (0x1000 + 16 * i + 4 * k)) 4 = .refused .unimplementedBlock := by
  obtain ⟨-, -, -, hbase⟩ := Build.wf_iff.1 hb
  calc locate b (b.clicBase + (0x1000 + 16 * i + 4 * k)) 4
      = locateOffset b (0x1000 + 16 * i + 4 * k) := locate_inside hbase (by omega) (by omega)
    _ = .refused .unimplementedBlock := (locateOffset_block b i hk).trans (if_neg hi.not_gt)

/-- Settles O45: the registers by `locate_addr`, the converse by `locate_eq_reg_iff`. -/
theorem addressMap : Obligations.AddressMap := by
  intro b hb
  refine ⟨locate_addr hb (r := .cfg) rfl, locate_addr hb (r := .info) rfl, fun off => locate_padding hb,
    fun i hi => ?_, fun addr n r => (locate_eq_reg_iff hb).1⟩
  have himpl : decide (i < b.nInt) = true := decide_eq_true hi
  simp only [Nat.add_assoc]
  exact ⟨locate_addr hb (r := .pend i) himpl, locate_addr hb (r := .en i) himpl, locate_addr hb (r := .attr i) himpl,
    locate_addr hb (r := .ctl i) himpl⟩

end Sys2Proof.Machine
end

section
/-! What stops an operation: a control block that the build lacks, and nothing else (R46, R200). -/

namespace Sys2Proof.Machine

/-- Answers a next state where the control block is there, and is refused for its lack where it is not (R46). -/
def stopsUnless (there : Bool) (o : Host.Outcome State Fault Refusal) : Prop :=
  (there = true → ∃ t, o = .next t) ∧ (there = false → o = .refused .unimplementedBlock)

theorem stopsUnless_next (t : State) : stopsUnless true (.next t) := ⟨fun _ => ⟨t, rfl⟩, nofun⟩

theorem stopsUnless_ite (there : Bool) (t : State) :
    stopsUnless there (if there then .next t else .refused .unimplementedBlock) := by
  cases there
  · exact ⟨nofun, fun _ => rfl⟩
  · exact stopsUnless_next t

theorem writeOp_stopsUnless (r : Reg) (v : Word) (s : State) :
    stopsUnless (r.implemented s.build) (writeOp r v s) := by
  rw [writeOp_eq]
  exact stopsUnless_ite _ _

theorem readOp_stopsUnless (r : Reg) (result : Word → MWord) (s : State) :
    stopsUnless (r.implemented s.build) (readOp r result s) := by
  rw [readOp_eq]
  exact stopsUnless_ite _ _

/-- Both steps of a read-modify-write need the register. -/
theorem updateOp_stopsUnless (op : Instr) (r : Reg) (high low : Nat) (v : Word) (s : State) :
    stopsUnless (r.implemented s.build) (updateOp op r high low v s) := by
  have hbegin : stopsUnless (r.implemented s.build) (beginUpdate op r s) := by
    rw [beginUpdate_eq]
    exact stopsUnless_ite _ _
  unfold updateOp
  split
  next => exact hbegin
  next f _ =>
    split
    · rw [finishUpdate_eq]
      exact stopsUnless_ite _ _
    · exact hbegin

theorem available_of_blockOf {i : Instr} {idx : BitVec 12} (b : Build) (h : blockOf i = some idx) :
    available b i = decide (idx.toNat < b.nInt) := by
  rw [available, h]
  rfl

/-- Every operation stops for the lack of its control block, and for that alone. -/
theorem exec_stopsUnless (i : Instr) (s : State) : stopsUnless (available s.build i) (exec i s) := by
  cases i with
  | mask idx => exact writeOp_stopsUnless (.en (index idx)) _ s
  | unmask idx => exact writeOp_stopsUnless (.en (index idx)) _ s
  | pend idx => exact writeOp_stopsUnless (.pend (index idx)) _ s
  | unpend idx => exact writeOp_stopsUnless (.pend (index idx)) _ s
  | isEnabled idx => exact readOp_stopsUnless (.en (index idx)) _ s
  | isPending idx => exact readOp_stopsUnless (.pend (index idx)) _ s
  | getPriority idx => exact readOp_stopsUnless (.ctl (index idx)) _ s
  | getModeBitWidth | getLevelBitWidth | hasInterruptVectoring =>
    simp only [exec, execGetModeBitWidth, execGetLevelBitWidth, execHasInterruptVectoring]
    exact readOp_stopsUnless .cfg _ s
  | getNumInt | getPossibleLevelBits | getVersion | getMaxInterrupts =>
    simp only [exec, execGetNumInt, execGetPossibleLevelBits, execGetVersion, execGetMaxInterrupts]
    exact readOp_stopsUnless .info _ s
  | setPriority | setTrig | enableShv | disableShv | setModeBitWidth | setLevelBitWidth =>
    rw [← updateOf_implemented (c := s.port.command) s.build rfl, exec_updateOf rfl]
    exact updateOp_stopsUnless ..
  | steal | isActive | mtvecAddress => exact stopsUnless_next _
  | readBits | writeBits | take | mtvecTrapMode | mtvecSubMode | mtvecWrite =>
    simp only [exec, execReadBits, execWriteBits, codecOp, execTake, execMtvecTrapMode, execMtvecSubMode,
      execMtvecWrite]
    repeat' split
    all_goals exact stopsUnless_next _

end Sys2Proof.Machine
end

section
/-! The raw transactions of the two ports (R41 to R50, R246). -/

namespace Sys2Proof.Machine

/-! ## Stops of the register port -/

theorem memRead_refused {b : Refusal} {q addr n : Nat} {s : State} (h : locate s.build addr n = .refused b) :
    memRead q addr n s = .refused b := by
  simp [memRead, h]

theorem memWrite_refused {b : Refusal} {addr n : Nat} {s : State} (v : Word) (h : locate s.build addr n = .refused b) :
    memWrite addr n v s = .refused b := by
  simp [memWrite, h]

theorem memRead_fault {f : Fault} {q addr n : Nat} {s : State} (h : locate s.build addr n = .fault f) :
    memRead q addr n s = .fault f := by
  simp [memRead, h]

theorem memWrite_fault {f : Fault} {addr n : Nat} {s : State} (v : Word) (h : locate s.build addr n = .fault f) :
    memWrite addr n v s = .fault f := by
  simp [memWrite, h]

/-- Settles O21: operations by `exec_stopsUnless`, raw transactions by the decoder's answer at the block. -/
theorem unimplementedBlocksAreRefused : Obligations.UnimplementedBlocksAreRefused := by
  refine ⟨fun i idx s hblock => ?_, fun i off q v s hb hi hmax hoff => ?_⟩
  · obtain ⟨hnext, hrefused⟩ := exec_stopsUnless i s
    rw [available_of_blockOf s.build hblock] at hnext hrefused
    refine ⟨fun hn => hrefused (decide_eq_false hn.not_gt), fun hall => hnext (decide_eq_true ?_)⟩
    rw [hall]
    exact idx.isLt
  · obtain ⟨k, hk, rfl⟩ : ∃ k, k < 4 ∧ off = 4 * k := by
      simp only [List.mem_cons, List.not_mem_nil, or_false] at hoff
      exact ⟨off / 4, by omega, by omega⟩
    have hloc : locate s.build (s.build.clicBase + 0x1000 + 16 * i + 4 * k) 4 = .refused .unimplementedBlock := by
      simpa only [Nat.add_assoc] using locate_unimplementedBlock hb hi hmax hk
    exact ⟨memRead_refused hloc, memWrite_refused v hloc⟩

/-- Settles O48: the decoder refuses before it looks at a register, and refuses the padding by its offset. -/
theorem transactionsWithNoMeaningAreRefused : Obligations.TransactionsWithNoMeaningAreRefused := by
  refine ⟨fun q addr n v s hbad => ?_, fun q off v s hb hlo hhi ha => ?_⟩
  · have hloc : locate s.build addr n = .refused .badTransaction := locate_badTransaction hbad
    exact ⟨memRead_refused hloc, memWrite_refused v hloc⟩
  · have hloc : locate s.build (s.build.clicBase + off) 4 = .refused .reservedPadding := locate_padding hb hlo hhi ha
    exact ⟨memRead_refused hloc, memWrite_refused v hloc⟩

/-- Settles O49: of the decoder's questions only that for the SYST window is left. -/
theorem outsideTheRegisterSpace : Obligations.OutsideTheRegisterSpace := by
  intro q addr v s ha hout
  refine ⟨fun hsyst => ?_, fun hsyst => ?_⟩
  · have hloc : locate s.build addr 4 = .refused .systRegister := (locate_outside ha hout).trans (if_pos hsyst)
    exact ⟨memRead_refused hloc, memWrite_refused v hloc⟩
  · have hloc : locate s.build addr 4 = .fault .noSuchAddress := (locate_outside ha hout).trans (if_neg hsyst)
    exact ⟨memRead_fault hloc, memWrite_fault v hloc⟩

/-! ## Reads -/

/-- The state after requester `q` has read the register `r` raw. -/
def State.readRaw (s : State) (q : Nat) (r : Reg) : State :=
  { s with
    out := some (.memData q (rawWord s r (Config.any31 s.draws)))
    draws := if r.openUpper then s.draws + 1 else s.draws }

@[simp] theorem State.readRaw_stored (s : State) (q : Nat) (r r' : Reg) :
    (s.readRaw q r).stored r' = s.stored r' := by cases r' <;> rfl

theorem memRead_addr {r : Reg} {s : State} (q : Nat) (hb : s.build.wf = true) (hr : r.implemented s.build = true) :
    memRead q (r.addr s.build) 4 s = .next (s.readRaw q r) := by
  simp [memRead, locate_addr hb hr, State.readRaw]

/-- A one-bit register reads its flag in bit 0 and the draw above it (R47). -/
theorem rawWord_flag {s : State} {r : Reg} {f : Bool} (u : BitVec 31) (hr : r.openUpper = true)
    (hf : s.stored r = flagWord f) :
    (rawWord s r u).getLsbD 0 = f ∧ (rawWord s r u).extractLsb' 1 31 = u := by
  have hword : rawWord s r u = u ++ BitVec.ofBool f := by
    cases f <;> simp [rawWord, hr, hf, flagWord]
  rw [hword]
  exact ⟨by rw [BitVec.getLsbD_append]; simp, BitVec.extractLsb'_append_eq_left⟩

/-- Settles O46: the word by `rawWord_flag` for the one-bit registers, and the stored word at the others. -/
theorem rawReadReturnsTheRegister : Obligations.RawReadReturnsTheRegister := by
  intro q r s hb hr
  have hregs : keepsRegisters s (s.readRaw q r) := s.readRaw_stored q r
  refine ⟨s.readRaw q r, rawWord s r (Config.any31 s.draws), memRead_addr q hb hr, rfl, ?_, ?_, ?_, ?_, ?_, ?_, hregs,
    keepsBytes_of_registers rfl hregs, ⟨rfl, rfl, rfl, rfl, rfl, rfl, rfl⟩, rfl⟩
  · rintro rfl; rfl
  · rintro rfl; rfl
  · rintro i rfl; exact rawWord_flag _ rfl rfl
  · rintro i rfl; exact rawWord_flag _ rfl rfl
  · rintro i rfl; rfl
  · rintro i rfl; rfl

/-! ## Writes -/

theorem memWrite_addr {r : Reg} {s : State} (v : Word) (hb : s.build.wf = true) (hr : r.implemented s.build = true) :
    memWrite (r.addr s.build) 4 v s = .next (s.store r v) := by
  simp [memWrite, locate_addr hb hr]

theorem State.store_writesOnly (s : State) (r : Reg) (v : Word) : writesOnly r s (s.store r v) := by
  have h : keepsRegistersBut r s (s.store r v) := fun _ hr' => stored_store_other s v hr'
  exact ⟨h, keepsBytesOutside_of_registers (s.store_build r v) h, by simp [keepsOutside], s.store_draws r v⟩

/-- Settles O47: a raw write stores, and `State.store` is read back by the law of each register. -/
theorem rawWriteChangesTheRegister : Obligations.RawWriteChangesTheRegister := by
  intro r v s hb hr
  refine ⟨s.store r v, memWrite_addr v hb hr, ?_, ?_, ?_, ?_, ?_, ?_, s.store_writesOnly r v, s.store_inflight r v,
    s.store_out r v⟩
  · rintro rfl; rfl
  · rintro rfl; rfl
  · rintro i rfl; exact (pending_store ..).trans (if_pos rfl)
  · rintro i rfl; exact (enabled_store ..).trans (if_pos rfl)
  · rintro i rfl; exact (attrw_store ..).trans (if_pos rfl)
  · rintro i rfl; exact (ctlw_store ..).trans (if_pos rfl)

/-! ## The CSR port -/

@[simp] theorem rawCsrRead_stored (q : Nat) (s : State) (r : Reg) : (rawCsrRead q s).stored r = s.stored r := by
  cases r <;> rfl

/-- Settles O50: `truncM_toNat` says what of the word passes the port; no register of the register space is touched. -/
theorem csrPortReadsAndWritesMtvec : Obligations.CsrPortReadsAndWritesMtvec := by
  intro q v s
  have hread : keepsRegisters s (rawCsrRead q s) := rawCsrRead_stored q s
  have hwrite : keepsRegisters s (csrWrite s v) := csrWrite_stored s v
  exact ⟨⟨csrRead s, rfl, truncM_toNat _ _⟩,
    ⟨hread, keepsBytes_of_registers rfl hread, ⟨rfl, rfl, rfl, rfl, rfl, rfl, rfl⟩, rfl, rfl⟩,
    truncM_toNat _ _, hwrite, keepsBytes_of_registers rfl hwrite, rfl⟩

/-! ## Raw transactions as steps -/

/-- A requester with nothing in flight does what its command list says next. -/
theorem step_fetchAction {s : State} {q : Nat} {m : List Move} (hs : s.schedule = .requester q :: m)
    (hq : q < s.build.requesters) (hn : s.inflightOf q = none) : step s = (fetchAction q (s.opened m)).outcome := by
  simp [step_eq_outcome, fetch_requester hs, fetchRequester, hq, hn]

/-- Settles O41: the step is `fetchAction`, which has an arm for each raw transaction. -/
theorem stepPerformsRawTransactions : Obligations.StepPerformsRawTransactions := by
  intro s q a rest m u hs hq hn hp hu
  have hlist : (s.opened m).programOf q = a :: rest := hp
  subst hu
  rw [step_fetchAction hs hq hn, fetchAction, hlist]
  refine ⟨?_, ?_, ?_, ?_⟩
  · rintro addr n rfl; rfl
  · rintro addr n v rfl; rfl
  · rintro rfl; rfl
  · rintro v rfl; rfl

end Sys2Proof.Machine
end

section
/-! The word formats (R76) and the decoder (R84): the bits of a word that names an operation. -/

namespace Sys2Proof

/-! ## A word as its fields, one after the other -/

theorem extractLsb'_eq_append_iff {k m n s : Nat} (w : BitVec k) (hi : BitVec m) (lo : BitVec n) :
    w.extractLsb' s (m + n) = hi ++ lo ↔ w.extractLsb' (s + n) m = hi ∧ w.extractLsb' s n = lo := by
  rw [← BitVec.extractLsb'_append_extractLsb'_eq_extractLsb' rfl]
  refine ⟨fun h => ⟨?_, ?_⟩, fun ⟨hhi, hlo⟩ => hhi ▸ hlo ▸ rfl⟩
  · have hleft := congrArg (BitVec.extractLsb' n m) h
    rwa [BitVec.extractLsb'_append_eq_left, BitVec.extractLsb'_append_eq_left] at hleft
  · have hright := congrArg (BitVec.extractLsb' 0 n) h
    rwa [BitVec.extractLsb'_append_eq_right, BitVec.extractLsb'_append_eq_right] at hright

theorem encodeZ_eq_append (opc : BitVec 8) : encodeZ opc = opc ++ 0#24 := by
  have h := BitVec.setWidth_append_eq_shiftLeft_setWidth_or (w'' := 32) (b := opc) (b' := 0#24)
  simpa [encodeZ] using h.symm

theorem encodeX_eq_append (opc : BitVec 8) (idx imm : BitVec 12) : encodeX opc idx imm = opc ++ idx ++ imm := by
  have h := BitVec.setWidth_append_append_eq_shiftLeft_setWidth_or (w''' := 32) (b := opc) (b' := idx) (b'' := imm)
  simpa [encodeX] using h.symm

theorem encodeB_eq_append (opc : BitVec 8) (high low : BitVec 5) :
    encodeB opc high low = opc ++ 0#14 ++ high ++ low := by
  have h := BitVec.setWidth_append_append_append_eq_shiftLeft_setWidth_or (w'''' := 32) (b := opc) (b' := 0#14)
    (b'' := high) (b''' := low)
  simpa [encodeB] using h.symm

theorem encodeV_eq_append (opc : BitVec 8) (submode : BitVec 4) (mode : BitVec 2) :
    encodeV opc submode mode = opc ++ 0#18 ++ submode ++ mode := by
  have h := BitVec.setWidth_append_append_append_eq_shiftLeft_setWidth_or (w'''' := 32) (b := opc) (b' := 0#18)
    (b'' := submode) (b''' := mode)
  simpa [encodeV] using h.symm

/-! ## The words of each format -/

theorem eq_encodeZ_iff {opc : BitVec 8} {w : Word} :
    w = encodeZ opc ↔ w.extractLsb' 24 8 = opc ∧ w.extractLsb' 0 24 = 0 := by
  conv_lhs => rw [encodeZ_eq_append, ← BitVec.extractLsb'_eq_self (x := w)]
  exact extractLsb'_eq_append_iff w opc 0#24

theorem eq_encodeX_iff {opc : BitVec 8} {idx imm : BitVec 12} {w : Word} :
    w = encodeX opc idx imm ↔
      w.extractLsb' 24 8 = opc ∧ w.extractLsb' 12 12 = idx ∧ w.extractLsb' 0 12 = imm := by
  conv_lhs => rw [encodeX_eq_append, ← BitVec.extractLsb'_eq_self (x := w)]
  rw [← and_assoc]
  exact (extractLsb'_eq_append_iff w (opc ++ idx) imm).trans (and_congr_left' (extractLsb'_eq_append_iff w opc idx))

theorem eq_encodeB_iff {opc : BitVec 8} {high low : BitVec 5} {w : Word} :
    w = encodeB opc high low ↔ w.extractLsb' 24 8 = opc ∧ w.extractLsb' 10 14 = 0 ∧
      w.extractLsb' 5 5 = high ∧ w.extractLsb' 0 5 = low := by
  conv_lhs => rw [encodeB_eq_append, ← BitVec.extractLsb'_eq_self (x := w)]
  rw [← and_assoc, ← and_assoc]
  exact (extractLsb'_eq_append_iff w (opc ++ 0#14 ++ high) low).trans <| and_congr_left' <|
    (extractLsb'_eq_append_iff w (opc ++ 0#14) high).trans <| and_congr_left' <| extractLsb'_eq_append_iff w opc 0#14

theorem eq_encodeV_iff {opc : BitVec 8} {submode : BitVec 4} {mode : BitVec 2} {w : Word} :
    w = encodeV opc submode mode ↔ w.extractLsb' 24 8 = opc ∧ w.extractLsb' 6 18 = 0 ∧
      w.extractLsb' 2 4 = submode ∧ w.extractLsb' 0 2 = mode := by
  conv_lhs => rw [encodeV_eq_append, ← BitVec.extractLsb'_eq_self (x := w)]
  rw [← and_assoc, ← and_assoc]
  exact (extractLsb'_eq_append_iff w (opc ++ 0#18 ++ submode) mode).trans <| and_congr_left' <|
    (extractLsb'_eq_append_iff w (opc ++ 0#18) submode).trans <| and_congr_left' <| extractLsb'_eq_append_iff w opc 0#18

/-- The immediates of `SET_PRIORITY` and `SET_TRIG` leave must-be-zero bits above them in the 12 bits of format X. -/
theorem extractLsb'_eq_value_iff {w : Word} {value : BitVec 8} :
    w.extractLsb' 0 12 = value.setWidth 12 ↔ w.extractLsb' 8 4 = 0 ∧ w.extractLsb' 0 8 = value := by
  have h : value.setWidth 12 = 0#4 ++ value := BitVec.setWidth_eq_append (by decide)
  rw [h]
  exact extractLsb'_eq_append_iff w 0#4 value

theorem extractLsb'_eq_trig_iff {w : Word} {trig : BitVec 2} :
    w.extractLsb' 0 12 = trig.setWidth 12 ↔ w.extractLsb' 2 10 = 0 ∧ w.extractLsb' 0 2 = trig := by
  have h : trig.setWidth 12 = 0#10 ++ trig := BitVec.setWidth_eq_append (by decide)
  rw [h]
  exact extractLsb'_eq_append_iff w 0#10 trig

/-! ## The word of an operation -/

/-- The bits [23:0] of the word are the operands of the operation, every bit of them that is no operand being 0 (R76). -/
def operandsAre (w : Word) : Instr → Prop
  | .readBits high low | .writeBits high low =>
    w.extractLsb' 10 14 = 0 ∧ w.extractLsb' 5 5 = high ∧ w.extractLsb' 0 5 = low
  | .mask idx | .unmask idx | .isEnabled idx | .isPending idx | .pend idx | .unpend idx | .getPriority idx
  | .isActive idx | .enableShv idx | .disableShv idx => w.extractLsb' 12 12 = idx ∧ w.extractLsb' 0 12 = 0
  | .setPriority idx value => w.extractLsb' 12 12 = idx ∧ w.extractLsb' 8 4 = 0 ∧ w.extractLsb' 0 8 = value
  | .setTrig idx trig => w.extractLsb' 12 12 = idx ∧ w.extractLsb' 2 10 = 0 ∧ w.extractLsb' 0 2 = trig.code
  | .mtvecWrite submode mode =>
    w.extractLsb' 6 18 = 0 ∧ w.extractLsb' 2 4 = submode.code ∧ w.extractLsb' 0 2 = mode.code
  | .take | .steal | .setModeBitWidth | .getModeBitWidth | .setLevelBitWidth | .getLevelBitWidth
  | .hasInterruptVectoring | .getNumInt | .getPossibleLevelBits | .getVersion | .getMaxInterrupts | .mtvecAddress
  | .mtvecTrapMode | .mtvecSubMode => w.extractLsb' 0 24 = 0

/-- The encoder writes the one word with the operation's code and operands. -/
theorem eq_encode_iff {w : Word} {i : Instr} : w = encode i ↔ w.extractLsb' 24 8 = i.opc ∧ operandsAre w i := by
  cases i with
  | readBits | writeBits => exact eq_encodeB_iff
  | setPriority => exact eq_encodeX_iff.trans (and_congr_right' (and_congr_right' extractLsb'_eq_value_iff))
  | setTrig => exact eq_encodeX_iff.trans (and_congr_right' (and_congr_right' extractLsb'_eq_trig_iff))
  | mtvecWrite => exact eq_encodeV_iff
  | mask | unmask | isEnabled | isPending | pend | unpend | getPriority | isActive | enableShv | disableShv =>
    exact eq_encodeX_iff
  | _ => exact eq_encodeZ_iff

/-! ## Codes -/

/-- Code 2 is reserved (R71). -/
theorem TrapMode.code_ne_two (mode : TrapMode) : mode.code ≠ 2 := by cases mode <;> decide

theorem TrapMode.clic_of_code {clic : Bool} {mode : TrapMode} (hwf : mode.wf clic = true) (h : mode.code = 3) :
    clic = true := by
  cases mode with
  | direct | vectored => cases h
  | clic => exact hwf

theorem decodeTrigger_eq_iff {t : BitVec 2} {trig : Trigger} : decodeTrigger t = trig ↔ t = trig.code := by
  cases trig <;> (revert t; decide)

theorem decodeSubMode_eq_some_iff {m : BitVec 4} {submode : SubMode} :
    decodeSubMode m = some submode ↔ m = submode.code := by
  cases submode; simp [decodeSubMode, SubMode.code]

theorem decodeMode_eq_some_iff {clic : Bool} {m : BitVec 2} {mode : TrapMode} :
    decodeMode clic m = some mode ↔ m = mode.code ∧ mode.wf clic = true := by
  cases mode <;> (revert clic m; decide)

/-! ## The decoder of each format -/

/-- The shape that the decoders of the formats share: the operation where the must-be-zero bits are 0. -/
theorem ite_ok_iff {p : Prop} [Decidable p] {e : DecodeError} {i j : Instr} :
    (if p then Except.ok j else Except.error e) = Except.ok i ↔ p ∧ j = i := by
  split <;> simp_all

theorem decodeZ_ok_iff {w : Word} {i j : Instr} : decodeZ w j = .ok i ↔ w.extractLsb' 0 24 = 0 ∧ j = i := ite_ok_iff

theorem decodeX_ok_iff {w : Word} {i : Instr} {f : BitVec 12 → Instr} :
    decodeX w f = .ok i ↔ w.extractLsb' 0 12 = 0 ∧ f (w.extractLsb' 12 12) = i := ite_ok_iff

theorem decodeSetPriority_ok_iff {w : Word} {i : Instr} :
    decodeSetPriority w = .ok i ↔
      w.extractLsb' 8 4 = 0 ∧ Instr.setPriority (w.extractLsb' 12 12) (w.extractLsb' 0 8) = i := ite_ok_iff

theorem decodeSetTrig_ok_iff {w : Word} {i : Instr} :
    decodeSetTrig w = .ok i ↔
      w.extractLsb' 2 10 = 0 ∧ Instr.setTrig (w.extractLsb' 12 12) (decodeTrigger (w.extractLsb' 0 2)) = i := ite_ok_iff

theorem decodeB_ok_iff {w : Word} {i : Instr} {f : BitVec 5 → BitVec 5 → Instr} :
    decodeB w f = .ok i ↔ w.extractLsb' 10 14 = 0 ∧ f (w.extractLsb' 5 5) (w.extractLsb' 0 5) = i := ite_ok_iff

theorem decodeSubModeOp_ok_iff {clic : Bool} {w : Word} {i : Instr} :
    decodeSubModeOp clic w = .ok i ↔ clic = true ∧ w.extractLsb' 0 24 = 0 ∧ Instr.mtvecSubMode = i := by
  cases clic <;> simp [decodeSubModeOp, decodeZ_ok_iff]

theorem decodeV_ok_iff {clic : Bool} {w : Word} {i : Instr} :
    decodeV clic w = .ok i ↔ ∃ submode mode, w.extractLsb' 6 18 = 0 ∧ w.extractLsb' 2 4 = submode.code ∧
      w.extractLsb' 0 2 = mode.code ∧ mode.wf clic = true ∧ Instr.mtvecWrite submode mode = i := by
  constructor
  · intro h
    unfold decodeV at h
    split at h
    case isFalse => cases h
    case isTrue hz =>
      split at h
      case h_1 => cases h
      case h_2 submode hsub =>
        split at h
        case h_2 => cases h
        case h_1 mode hmode =>
          cases h
          obtain ⟨hcode, hclic⟩ := decodeMode_eq_some_iff.1 hmode
          exact ⟨submode, mode, hz, decodeSubMode_eq_some_iff.1 hsub, hcode, hclic, rfl⟩
  · rintro ⟨submode, mode, hz, hsub, hmode, hclic, rfl⟩
    have hs : decodeSubMode (w.extractLsb' 2 4) = some submode := decodeSubMode_eq_some_iff.2 hsub
    have hm : decodeMode clic (w.extractLsb' 0 2) = some mode := decodeMode_eq_some_iff.2 ⟨hmode, hclic⟩
    simp only [decodeV, hz, hs, hm, if_true]

/-! ## The decoder -/

/-- The arms of `decode`, in the order of the codes of R83, each by the format that the operation has. -/
theorem fields_of_decode {clic : Bool} {w : Word} {i : Instr} (h : decode clic w = .ok i) :
    w.extractLsb' 24 8 = i.opc ∧ operandsAre w i ∧ i.wf clic = true := by
  unfold decode at h
  split at h
  case h_30 => cases h
  case h_1 hopc | h_2 hopc =>
    obtain ⟨hz, rfl⟩ := decodeB_ok_iff.1 h
    exact ⟨BitVec.eq_of_toNat_eq hopc, ⟨hz, rfl, rfl⟩, rfl⟩
  case h_12 hopc =>
    obtain ⟨hz, rfl⟩ := decodeSetPriority_ok_iff.1 h
    exact ⟨BitVec.eq_of_toNat_eq hopc, ⟨rfl, hz, rfl⟩, rfl⟩
  case h_16 hopc =>
    obtain ⟨hz, rfl⟩ := decodeSetTrig_ok_iff.1 h
    exact ⟨BitVec.eq_of_toNat_eq hopc, ⟨rfl, hz, decodeTrigger_eq_iff.1 rfl⟩, rfl⟩
  case h_28 hopc =>
    obtain ⟨hclic, hz, rfl⟩ := decodeSubModeOp_ok_iff.1 h
    exact ⟨BitVec.eq_of_toNat_eq hopc, hz, hclic⟩
  case h_29 hopc =>
    obtain ⟨submode, mode, hz, hsub, hmode, hclic, rfl⟩ := decodeV_ok_iff.1 h
    exact ⟨BitVec.eq_of_toNat_eq hopc, ⟨hz, hsub, hmode⟩, hclic⟩
  case h_5 hopc | h_6 hopc | h_7 hopc | h_8 hopc | h_9 hopc | h_10 hopc | h_11 hopc | h_13 hopc | h_14 hopc
    | h_15 hopc =>
    obtain ⟨hz, rfl⟩ := decodeX_ok_iff.1 h
    exact ⟨BitVec.eq_of_toNat_eq hopc, ⟨rfl, hz⟩, rfl⟩
  all_goals
    next hopc =>
      obtain ⟨hz, rfl⟩ := decodeZ_ok_iff.1 h
      exact ⟨BitVec.eq_of_toNat_eq hopc, hz, rfl⟩

theorem decode_of_fields {clic : Bool} {w : Word} {i : Instr} (hopc : w.extractLsb' 24 8 = i.opc)
    (hops : operandsAre w i) (hwf : i.wf clic = true) : decode clic w = .ok i := by
  unfold decode
  rw [hopc]
  cases i with
  | readBits | writeBits =>
    obtain ⟨hz, rfl, rfl⟩ := hops
    exact decodeB_ok_iff.2 ⟨hz, rfl⟩
  | setPriority =>
    obtain ⟨rfl, hz, rfl⟩ := hops
    exact decodeSetPriority_ok_iff.2 ⟨hz, rfl⟩
  | setTrig =>
    obtain ⟨rfl, hz, htrig⟩ := hops
    exact decodeSetTrig_ok_iff.2 ⟨hz, by rw [decodeTrigger_eq_iff.2 htrig]⟩
  | mtvecSubMode => exact decodeSubModeOp_ok_iff.2 ⟨hwf, hops, rfl⟩
  | mtvecWrite submode mode =>
    obtain ⟨hz, hsub, hmode⟩ := hops
    exact decodeV_ok_iff.2 ⟨submode, mode, hz, hsub, hmode, hwf, rfl⟩
  | mask | unmask | isEnabled | isPending | pend | unpend | getPriority | isActive | enableShv | disableShv =>
    obtain ⟨rfl, hz⟩ := hops
    exact decodeX_ok_iff.2 ⟨hz, rfl⟩
  | _ => exact decodeZ_ok_iff.2 ⟨hops, rfl⟩

/-- The decoder asks for the operation's code, its operands in their places and its existence in the build. -/
theorem decode_ok_iff {clic : Bool} {w : Word} {i : Instr} :
    decode clic w = .ok i ↔ w.extractLsb' 24 8 = i.opc ∧ operandsAre w i ∧ i.wf clic = true :=
  ⟨fields_of_decode, fun ⟨hopc, hops, hwf⟩ => decode_of_fields hopc hops hwf⟩

/-- Settles O34: `encode` and `decode` ask the same of the bits of a word, and `decode` asks for the build besides. -/
theorem decodeIsTheInverseOfEncode : Obligations.DecodeIsTheInverseOfEncode := by
  intro clic w i
  rw [decode_ok_iff, eq_comm (a := encode i), eq_encode_iff, and_assoc]

/-- Settles O37, by running the decoder on the six words. -/
theorem writtenOutWordsDecode : Obligations.WrittenOutWordsDecode := by
  unfold Obligations.WrittenOutWordsDecode
  decide

end Sys2Proof
end

section
/-! A command as a step (R84 to R86): a word that decodes runs, one that does not gets `ILLEGAL`; and which words do not. -/

namespace Sys2Proof.Machine

/-- Settles O38: `State.issued` is the state at which the command runs. -/
theorem stepRunsTheDecodedCommand : Obligations.StepRunsTheDecodedCommand := by
  intro s q c rest moves i hs hq hn hp hd
  exact step_issues hs hq hn hp hd

/-! ## The reply to an illegal word -/

/-- A requester with nothing in flight gets `ILLEGAL` for a command that decodes to no operation. -/
theorem step_issues_illegal {s : State} {q : Nat} {c : Command} {rest : List Action} {m : List Move} {e : DecodeError}
    (hs : s.schedule = .requester q :: m) (hq : q < s.build.requesters) (hn : s.inflightOf q = none)
    (hp : s.programOf q = .command c :: rest) (hd : decode s.build.clicSupport c.cmd = .error e) :
    step s = .next (replyIllegal (s.issued q c rest m)) := by
  simp [step_fetchAction hs hq hn, fetchAction, hp, issue, hd, Fetched.outcome, State.issued]

theorem State.issued_programOf_same (s : State) (q : Nat) (c : Command) (rest : List Action) (m : List Move) :
    (s.issued q c rest m).programOf q = rest :=
  State.setProgram_programOf_same (s.opened m) q rest

theorem State.issued_programOf_other (s : State) {q p : Nat} (c : Command) (rest : List Action) (m : List Move)
    (hp : p ≠ q) : (s.issued q c rest m).programOf p = s.programOf p :=
  State.setProgram_programOf_other (s.opened m) rest hp

/-- Of the block nothing changes, since `replyIllegal` drives the outputs alone. -/
theorem repliesIllegal_of_decode {clic : Bool} {w : Word} (h : ∀ i, decode clic w ≠ .ok i) : repliesIllegal clic w := by
  rintro s q c rest moves rfl rfl hs hq hn hp
  obtain ⟨e, he⟩ : ∃ e, decode s.build.clicSupport c.cmd = .error e := by
    cases hd : decode s.build.clicSupport c.cmd with
    | error e => exact ⟨e, rfl⟩
    | ok i => exact absurd hd (h i)
  have hregs : keepsRegisters s (replyIllegal (s.issued q c rest moves)) := fun r =>
    (State.reply_stored _ _ _ r).trans (s.issued_stored q c rest moves r)
  exact ⟨_, step_issues_illegal hs hq hn hp he, rfl, hregs, keepsBytes_of_registers rfl hregs, rfl, rfl, rfl, rfl,
    fun _ => rfl, rfl, rfl, s.issued_programOf_same q c rest moves,
    fun _ hne => s.issued_programOf_other c rest moves hne⟩

/-! ## The illegal words -/

/-- Settles O35: a word that decodes has the code of an operation and zeros where its format wants them. -/
theorem reservedEncodingsAreIllegal : Obligations.ReservedEncodingsAreIllegal := by
  intro clic w opc hopc hbad
  have hnone : ∀ i, decode clic w ≠ .ok i := by
    intro i hd
    obtain ⟨hcode, hops, -⟩ := decode_ok_iff.1 hd
    rw [hcode] at hopc
    subst hopc
    cases i with
    | readBits | writeBits | mtvecWrite =>
      obtain ⟨hz, -⟩ := hops
      simp [Instr.opc, hz] at hbad
    | setPriority | setTrig =>
      obtain ⟨-, hz, -⟩ := hops
      simp [Instr.opc, hz] at hbad
    | mask | unmask | isEnabled | isPending | pend | unpend | getPriority | isActive | enableShv | disableShv =>
      obtain ⟨-, hz⟩ := hops
      simp [Instr.opc, hz] at hbad
    | _ =>
      have hz : w.extractLsb' 0 24 = 0 := hops
      simp [Instr.opc, hz] at hbad
  exact ⟨hnone, repliesIllegal_of_decode hnone⟩

/-- Settles O36: no mode of the build has code 2, nor 3 in a non-CLIC build, and the one sub-mode has code 0. -/
theorem operandValuesWithNoMeaningAreIllegal : Obligations.OperandValuesWithNoMeaningAreIllegal := by
  intro clic w hbad
  have hnone : ∀ i, decode clic w ≠ .ok i := by
    intro i hd
    obtain ⟨hcode, hops, hwf⟩ := decode_ok_iff.1 hd
    rw [hcode] at hbad
    cases i with
    | mtvecSubMode =>
      have hclic : clic = true := hwf
      simp [Instr.opc, hclic] at hbad
    | mtvecWrite submode mode =>
      obtain ⟨-, hsub, hmode⟩ := hops
      cases submode
      have hcodes : mode.code = 2 ∨ clic = false ∧ mode.code = 3 := by
        simpa [Instr.opc, hsub, hmode, SubMode.code] using hbad
      obtain hreserved | ⟨hplain, hclic⟩ := hcodes
      · exact mode.code_ne_two hreserved
      · exact Bool.false_ne_true (hplain.symm.trans (TrapMode.clic_of_code hwf hclic))
    | _ => simp [Instr.opc] at hbad
  exact ⟨hnone, repliesIllegal_of_decode hnone⟩

end Sys2Proof.Machine
end

section
/-! Status codes and who may reply what (R88, R204). -/

namespace Sys2Proof.Machine

/-! ## The replies of the shared shapes -/

theorem codecOp_next {high low : BitVec 5} {value : Word} {s t : State} (h : codecOp high low value s = .next t) :
    ∃ d x, t = ({ s with draws := d } : State).reply .ok x := by
  unfold codecOp at h
  split at h <;> cases h
  · exact ⟨s.draws, _, rfl⟩
  · exact ⟨s.draws + 1, _, rfl⟩

theorem writeOp_next {r : Reg} {v : Word} {s t : State} (h : writeOp r v s = .next t) :
    t = (s.store r v).reply .ok 0 := by
  rw [writeOp_eq] at h
  split at h <;> cases h
  rfl

theorem readOp_next {r : Reg} {result : Word → MWord} {s t : State} (h : readOp r result s = .next t) :
    t = s.reply .ok (result (s.stored r)) := by
  rw [readOp_eq] at h
  split at h <;> cases h
  rfl

/-! ## The replies of the operations -/

/-- The status and the result that the operation `i` may reply in a build (R88): anything with `OK`, 0 with `NONE` of the
operations that have it, 0 with `ILLEGAL` of an operation that the build lacks. -/
def mayReply (clic : Bool) (i : Instr) (st : Status) (x : MWord) : Prop :=
  match st with
  | .ok => True
  | .none => x = 0 ∧ (i = .take ∨ i = .mtvecTrapMode ∨ i = .mtvecSubMode)
  | .illegal => x = 0 ∧ i.wf clic = false

/-- An operation drives nothing (step 1 of two), or replies to its own requester what it may. -/
theorem exec_out {i : Instr} {s t : State} (h : exec i s = .next t) :
    t.out = s.out ∨ ∃ st x, replied s t st x ∧ mayReply s.build.clicSupport i st x := by
  cases i with
  | mtvecTrapMode =>
    simp only [exec, execMtvecTrapMode] at h
    split at h <;> cases h
    · exact .inr ⟨.ok, _, rfl, trivial⟩
    · exact .inr ⟨.none, 0, rfl, rfl, .inr (.inl rfl)⟩
  | mtvecSubMode =>
    simp only [exec, execMtvecSubMode] at h
    split at h
    case isTrue =>
      split at h <;> cases h
      · exact .inr ⟨.ok, _, rfl, trivial⟩
      · exact .inr ⟨.none, 0, rfl, rfl, .inr (.inr rfl)⟩
    case isFalse hclic =>
      cases h
      exact .inr ⟨.illegal, 0, rfl, rfl, by simpa [Instr.wf] using hclic⟩
  | mtvecWrite =>
    simp only [exec, execMtvecWrite] at h
    split at h
    case isTrue => cases h; exact .inr ⟨.ok, _, rfl, trivial⟩
    case isFalse hclic => cases h; exact .inr ⟨.illegal, 0, rfl, rfl, by simpa [Instr.wf] using hclic⟩
  | take =>
    simp only [exec, execTake] at h
    split at h <;> cases h
    · exact .inr ⟨.none, 0, rfl, rfl, .inl rfl⟩
    · exact .inr ⟨.ok, _, rfl, trivial⟩
  | steal | isActive | mtvecAddress => cases h; exact .inr ⟨.ok, _, rfl, trivial⟩
  | readBits | writeBits => obtain ⟨d, y, rfl⟩ := codecOp_next h; exact .inr ⟨.ok, y, rfl, trivial⟩
  | mask | unmask | pend | unpend => obtain rfl := writeOp_next h; exact .inr ⟨.ok, 0, rfl, trivial⟩
  | isEnabled | isPending | getPriority => obtain rfl := readOp_next h; exact .inr ⟨.ok, _, rfl, trivial⟩
  | getModeBitWidth | getLevelBitWidth | hasInterruptVectoring | getNumInt | getPossibleLevelBits | getVersion
  | getMaxInterrupts =>
    simp only [exec, execGetModeBitWidth, execGetLevelBitWidth, execHasInterruptVectoring, execGetNumInt,
      execGetPossibleLevelBits, execGetVersion, execGetMaxInterrupts] at h
    obtain rfl := readOp_next h
    exact .inr ⟨.ok, _, rfl, trivial⟩
  | setPriority | setTrig | enableShv | disableShv | setModeBitWidth | setLevelBitWidth =>
    obtain ⟨-, rfl | ⟨f, -, -, rfl⟩⟩ := updateOp_next h
    · exact .inl rfl
    · exact .inr ⟨.ok, _, rfl, trivial⟩

/-- Settles O57: with the outputs idle before, the reply that stands there is the one that `exec_out` speaks of. -/
theorem statusOfAReply : Obligations.StatusOfAReply := by
  refine ⟨⟨rfl, rfl, rfl, fun st => by cases st <;> decide⟩, fun i s t q st x hidle h hout => ?_⟩
  obtain hsame | ⟨st', x', hreply, hmay⟩ := exec_out h
  · rw [hsame, hidle] at hout
    cases hout
  · rw [hreply] at hout
    cases hout
    cases st with
    | ok => exact ⟨rfl, nofun, nofun, nofun⟩
    | none => exact ⟨rfl, fun _ => hmay.1, fun _ => hmay.2, nofun⟩
    | illegal => exact ⟨rfl, fun _ => hmay.1, nofun, fun _ => hmay.2⟩

end Sys2Proof.Machine
end

section
/-! The bit-field codec bit by bit (R100, R101), its laws (R104) and its two operations (R102, R103, R105). -/

namespace Sys2Proof.Machine

/-! ## Reading a field -/

/-- The truncation to 32 bits in the model's `readBits` loses nothing, whatever the range. -/
theorem readBits_toNat (word : Word) (high low : Nat) :
    (readBits word high low).toNat = (word.toNat >>> low) % 2 ^ fieldWidth high low := by
  have hlt : (word.toNat >>> low) % 2 ^ fieldWidth high low < 2 ^ 32 :=
    calc (word.toNat >>> low) % 2 ^ fieldWidth high low
      _ ≤ word.toNat >>> low := Nat.mod_le _ _
      _ ≤ word.toNat := Nat.shiftRight_le _ _
      _ < 2 ^ 32 := word.isLt
  rw [readBits, BitVec.toNat_ofNat, Nat.mod_eq_of_lt hlt]

theorem readBits_toNat_lt (word : Word) (high low : Nat) :
    (readBits word high low).toNat < 2 ^ fieldWidth high low := by
  rw [readBits_toNat]
  exact Nat.mod_lt _ (Nat.two_pow_pos _)

theorem readBits_getLsbD (word : Word) (high low b : Nat) :
    (readBits word high low).getLsbD b = (decide (b ≤ high - low) && word.getLsbD (low + b)) := by
  rw [← BitVec.testBit_toNat, readBits_toNat, Nat.testBit_mod_two_pow, Nat.testBit_shiftRight, BitVec.testBit_toNat,
    fieldWidth]
  simp only [Nat.lt_succ_iff]

theorem readBits_full (word : Word) : readBits word 31 0 = word := by
  apply BitVec.eq_of_toNat_eq
  rw [readBits_toNat, Nat.shiftRight_zero]
  exact Nat.mod_eq_of_lt word.isLt

/-- A field depends on the bits of its range alone. -/
theorem readBits_congr {w w' : Word} {high low : Nat} (hlh : low ≤ high)
    (h : ∀ b, low ≤ b → b ≤ high → w.getLsbD b = w'.getLsbD b) : readBits w high low = readBits w' high low := by
  apply BitVec.eq_of_getLsbD_eq
  intro b _
  rw [readBits_getLsbD, readBits_getLsbD]
  by_cases hb : b ≤ high - low
  · rw [h (low + b) (by omega) (by omega)]
  · simp [hb]

/-- Settles O1, by the value of a read as a number and by its bits. -/
theorem readBitsIsTheFieldShiftedDown : Obligations.ReadBitsIsTheFieldShiftedDown := by
  intro word high low _ _
  exact ⟨readBits_toNat word high low, readBits_toNat_lt word high low, readBits_getLsbD word high low,
    readBits_full word⟩

/-! ## Writing a field -/

theorem fieldMask_getLsbD_inside {high low b : Nat} (hlow : low ≤ b) (hhigh : b ≤ high) (hb : b < 32) :
    (fieldMask high low).getLsbD b = true := by
  have hwidth : b - low < high - low + 1 := by omega
  simp [fieldMask, fieldWidth, BitVec.getLsbD_ofNat, Nat.testBit_shiftLeft, Nat.testBit_two_pow_sub_one, hb, hlow,
    hwidth]

/-- A bit inside the field is that of the value. -/
theorem writeBits_getLsbD_inside (word value : Word) {high low b : Nat} (hlow : low ≤ b) (hhigh : b ≤ high)
    (hb : b < 32) : (writeBits word high low value).getLsbD b = value.getLsbD (b - low) := by
  simp only [writeBits, BitVec.getLsbD_or, BitVec.getLsbD_and, BitVec.getLsbD_not, BitVec.getLsbD_shiftLeft,
    fieldMask_getLsbD_inside hlow hhigh hb]
  simp [hb, hlow]

theorem writeBits_getLsbD (word value : Word) {high low b : Nat} (hlh : low ≤ high) (hb : b < 32) :
    (writeBits word high low value).getLsbD b =
      if low ≤ b ∧ b ≤ high then value.getLsbD (b - low) else word.getLsbD b := by
  split
  case isTrue h =>
    obtain ⟨hlow, hhigh⟩ := h
    exact writeBits_getLsbD_inside word value hlow hhigh hb
  case isFalse h => exact writeBits_getLsbD_outside word value hlh (by omega)

theorem writeBits_full (word value : Word) : writeBits word 31 0 value = value := by
  apply BitVec.eq_of_getLsbD_eq
  intro b hb
  exact writeBits_getLsbD_inside word value (Nat.zero_le b) (Nat.le_of_lt_succ hb) hb

/-- Settles O2: the formula is the model's own, the bits are `writeBits_getLsbD`. -/
theorem writeBitsReplacesTheFieldBitByBit : Obligations.WriteBitsReplacesTheFieldBitByBit := by
  intro word value high low hlh _
  exact ⟨rfl, fun b hb => writeBits_getLsbD word value hlh hb, writeBits_full word value⟩

/-! ## The laws of the codec -/

/-- R104 (a). -/
theorem writeBits_readBits_same (word : Word) {high low : Nat} (hlh : low ≤ high) :
    writeBits word high low (readBits word high low) = word := by
  apply BitVec.eq_of_getLsbD_eq
  intro b hb
  rw [writeBits_getLsbD _ _ hlh hb]
  split
  case isTrue h =>
    obtain ⟨hlow, hhigh⟩ := h
    have hwidth : b - low ≤ high - low := by omega
    simp [readBits_getLsbD, hwidth, Nat.add_sub_cancel' hlow]
  case isFalse => rfl

/-- R104 (c): what is read back is the low end of the value, as wide as the field. -/
theorem readBits_writeBits_same (word value : Word) {high low : Nat} (hlh : low ≤ high) (h31 : high ≤ 31) :
    readBits (writeBits word high low value) high low = readBits value (high - low) 0 := by
  apply BitVec.eq_of_getLsbD_eq
  intro b _
  rw [readBits_getLsbD, readBits_getLsbD, Nat.sub_zero, Nat.zero_add]
  by_cases hb : b ≤ high - low
  · rw [writeBits_getLsbD_inside word value (by omega) (by omega) (by omega), Nat.add_sub_cancel_left]
  · simp [hb]

/-- R104 (d). -/
theorem readBits_writeBits_disjoint (word value : Word) {high low high' low' : Nat} (hlh : low ≤ high)
    (hlh' : low' ≤ high') (hdisj : high' < low ∨ high < low') :
    readBits (writeBits word high low value) high' low' = readBits word high' low' :=
  readBits_congr hlh' fun _ _ _ => writeBits_getLsbD_outside word value hlh (by omega)

/-- R104 (e), for any value written before: the later write wins. -/
theorem writeBits_writeBits (word value value' : Word) {high low : Nat} (hlh : low ≤ high) :
    writeBits (writeBits word high low value) high low value' = writeBits word high low value' := by
  apply BitVec.eq_of_getLsbD_eq
  intro b hb
  rw [writeBits_getLsbD _ _ hlh hb, writeBits_getLsbD _ _ hlh hb, writeBits_getLsbD _ _ hlh hb]
  split <;> rfl

/-- Settles O3. Law (c) reads the low end of the value as a number, where a remainder is a mask. -/
theorem codecLaws : Obligations.CodecLaws := by
  intro word value high low hlh h31
  have hmask : (readBits (writeBits word high low value) high low).toNat =
      value.toNat &&& (2 ^ (high - low + 1) - 1) := by
    rw [readBits_writeBits_same word value hlh h31, readBits_toNat, Nat.and_two_pow_sub_one_eq_mod]
    rfl
  exact ⟨writeBits_readBits_same word hlh, fun _ hb => writeBits_getLsbD_outside word value hlh hb, hmask,
    fun _ _ hlh' _ hdisj => readBits_writeBits_disjoint word value hlh hlh' hdisj,
    writeBits_writeBits word value value hlh⟩

/-! ## The operations of the codec -/

/-- The encoder's word of an operation names it in every build that has it. -/
theorem encodedAs_of_eq_encode {w : Word} {i : Instr} (h : w = encode i) : encodedAs w i := by
  intro clic hwf
  obtain ⟨hopc, hops⟩ := eq_encode_iff.1 h
  exact decode_of_fields hopc hops hwf

theorem exec_readBits (high low : BitVec 5) (s : State) :
    exec (.readBits high low) s = codecOp high low (readBits s.wordA (position high) (position low)) s := rfl

theorem exec_writeBits (high low : BitVec 5) (s : State) :
    exec (.writeBits high low) s =
      codecOp high low (writeBits s.wordA (position high) (position low) s.valueB) s := rfl

/-- Within the precondition of R100 and R101 a codec operation replies its value and leaves the block alone. -/
theorem codecOp_replies_value {high low : BitVec 5} (value : Word) (s : State) (h : low.toNat ≤ high.toNat) :
    ∃ t, codecOp high low value s = .next t ∧ replied s t .ok (value.setWidth 64) ∧ keepsBlock s t :=
  ⟨s.reply .ok (wordResult value), codecOp_le value s h, rfl, keepsBlock_reply s .ok _⟩

/-- Outside it a codec operation replies a draw, and of the block nothing but the count of draws changes (R105). -/
theorem codecOp_replies_draw {high low : BitVec 5} (value : Word) (s : State) (h : high.toNat < low.toNat) :
    ∃ t, codecOp high low value s = .next t ∧
      replied s t .ok ((Config.any32 s.draws).setWidth 64) ∧ t.draws = s.draws + 1 ∧
      keepsRegisters s t ∧ keepsBytes s t ∧ keepsOutside s t ∧ t.inflight = s.inflight := by
  have hregs : keepsRegisters s
      (({ s with draws := s.draws + 1 } : State).reply .ok (wordResult (Config.any32 s.draws))) := by
    intro r; cases r <;> rfl
  exact ⟨_, codecOp_gt value s h, rfl, rfl, hregs, keepsBytes_of_registers rfl hregs,
    ⟨rfl, rfl, rfl, rfl, rfl, rfl, rfl⟩, rfl⟩

/-- Settles O4: `READ_BITS` is the codec operation whose value is the field read. -/
theorem readBitsOperation : Obligations.ReadBitsOperation := by
  intro high low s
  rw [exec_readBits]
  exact ⟨encodedAs_of_eq_encode (by simp [encode, encodeB, Instr.opc]), codecOp_replies_value _ s,
    codecOp_replies_draw _ s⟩

/-- Settles O5: `WRITE_BITS` is the codec operation whose value is the word with the field replaced. -/
theorem writeBitsOperation : Obligations.WriteBitsOperation := by
  intro high low s
  rw [exec_writeBits]
  exact ⟨encodedAs_of_eq_encode (by simp [encode, encodeB, Instr.opc]), codecOp_replies_value _ s,
    codecOp_replies_draw _ s⟩

end Sys2Proof.Machine
end

section
/-! The ownership gate (R110 to R114): what `TAKE` and `STEAL` do to `TAKEN`, that nothing else looks at it or writes it, and
how often a run hands out a handle. -/

namespace Sys2Proof.Machine

/-! ## The state with another value of the gate -/

/-- The state with `TAKEN` set to `b`. -/
def State.withTaken (s : State) (b : Bool) : State := { s with taken := b }

section
variable (s : State) (b : Bool)

@[simp] theorem State.withTaken_build : (s.withTaken b).build = s.build := rfl
@[simp] theorem State.withTaken_taken : (s.withTaken b).taken = b := rfl
@[simp] theorem State.withTaken_port : (s.withTaken b).port = s.port := rfl
@[simp] theorem State.withTaken_inflightOf (q : Nat) : (s.withTaken b).inflightOf q = s.inflightOf q := rfl
@[simp] theorem State.withTaken_csrRead : csrRead (s.withTaken b) = csrRead s := rfl
@[simp] theorem State.withTaken_stored (r : Reg) : (s.withTaken b).stored r = s.stored r := by cases r <;> rfl
@[simp] theorem State.withTaken_store (r : Reg) (v : Word) :
    (s.withTaken b).store r v = (s.store r v).withTaken b := by cases r <;> rfl

theorem State.withTaken_self (h : s.taken = b) : s.withTaken b = s := by
  subst h
  rfl

end

/-! ## The two operations of the gate -/

/-- `TAKE` leaves `TAKEN` set, and its status says whether it was clear before (R110). -/
theorem exec_take (s : State) :
    exec .take s = .next ((s.withTaken true).reply (if s.taken then .none else .ok) 0) := by
  cases h : s.taken with
  | true => simp [exec, execTake, h, s.withTaken_self true h]
  | false => simp [exec, execTake, h, State.withTaken]

/-- `STEAL` does not look at `TAKEN` (R111). -/
theorem exec_steal (s : State) : exec .steal s = .next ((s.withTaken true).reply .ok 0) := rfl

/-- All that a state holds but `TAKEN` and the outputs stands as before. -/
def keepsAllButTaken (s t : State) : Prop :=
  keepsRegisters s t ∧ keepsBytes s t ∧ t.mtvec = s.mtvec ∧ t.tcause = s.tcause ∧ t.build = s.build ∧
  t.inflight = s.inflight ∧ t.draws = s.draws ∧ t.port = s.port ∧ t.programs = s.programs ∧ t.schedule = s.schedule

theorem keepsAllButTaken_reply (s : State) (b : Bool) (st : Status) (x : MWord) :
    keepsAllButTaken s ((s.withTaken b).reply st x) := by
  have hregs : keepsRegisters s ((s.withTaken b).reply st x) := fun r => by simp
  exact ⟨hregs, keepsBytes_of_registers rfl hregs, rfl, rfl, rfl, rfl, rfl, rfl, rfl, rfl⟩

/-- Settles O6: both values of `TAKEN` are cases of the status in `exec_take`. -/
theorem takeIsATestAndSet : Obligations.TakeIsATestAndSet := by
  intro s
  exact ⟨encodedAs_of_eq_encode (by decide), _, exec_take s, rfl, fun h => by simp [replied, h],
    fun h => by simp [replied, h], keepsAllButTaken_reply s true _ 0⟩

/-- Settles O7: `exec_steal`, with the frame that `TAKE` has too. -/
theorem stealSetsTheGate : Obligations.StealSetsTheGate := by
  intro s
  exact ⟨encodedAs_of_eq_encode (by decide), _, exec_steal s, rfl, rfl, keepsAllButTaken_reply s true .ok 0⟩

/-! ## The gate guards nothing (R114) -/

/-- The outcome with `TAKEN` set to `b` in its next state, where it has one. -/
def outcomeWithTaken (b : Bool) : Host.Outcome State Fault Refusal → Host.Outcome State Fault Refusal
  | .next t => .next (t.withTaken b)
  | .fault f => .fault f
  | .refused r => .refused r

section
variable (s : State) (b : Bool)

theorem codecOp_withTaken (high low : BitVec 5) (value : Word) :
    codecOp high low value (s.withTaken b) = outcomeWithTaken b (codecOp high low value s) := by
  unfold codecOp
  split <;> rfl

theorem writeOp_withTaken (r : Reg) (v : Word) :
    writeOp r v (s.withTaken b) = outcomeWithTaken b (writeOp r v s) := by
  simp only [writeOp_eq, State.withTaken_build, State.withTaken_store]
  split <;> rfl

theorem readOp_withTaken (r : Reg) (result : Word → MWord) :
    readOp r result (s.withTaken b) = outcomeWithTaken b (readOp r result s) := by
  simp only [readOp_eq, State.withTaken_build, State.withTaken_stored]
  split <;> rfl

theorem beginUpdate_withTaken (op : Instr) (r : Reg) :
    beginUpdate op r (s.withTaken b) = outcomeWithTaken b (beginUpdate op r s) := by
  simp only [beginUpdate_eq, State.withTaken_build, State.withTaken_stored]
  split <;> rfl

theorem finishUpdate_withTaken (r : Reg) (high low : Nat) (v word : Word) :
    finishUpdate r high low v word (s.withTaken b) = outcomeWithTaken b (finishUpdate r high low v word s) := by
  simp only [finishUpdate_eq, State.withTaken_build, State.withTaken_store]
  split <;> rfl

/-- Which of its two transactions an update runs is decided by what is in flight, so the gate reaches neither. -/
theorem updateOp_withTaken (op : Instr) (r : Reg) (high low : Nat) (v : Word) :
    updateOp op r high low v (s.withTaken b) = outcomeWithTaken b (updateOp op r high low v s) := by
  simp only [updateOp, State.withTaken_port, State.withTaken_inflightOf]
  cases s.inflightOf s.port.requester with
  | none => exact beginUpdate_withTaken s b op r
  | some f =>
    by_cases hop : f.op = op
    · simp only [hop, if_true, finishUpdate_withTaken]
    · simp only [hop, if_false, beginUpdate_withTaken]

/-- Every other operation has one of the shared shapes, or works on `MTVEC` or `TCAUSE` alone. -/
theorem exec_withTaken {i : Instr} (htake : i ≠ .take) (hsteal : i ≠ .steal) :
    exec i (s.withTaken b) = outcomeWithTaken b (exec i s) := by
  cases i with
  | take => exact absurd rfl htake
  | steal => exact absurd rfl hsteal
  | readBits | writeBits => exact codecOp_withTaken s b _ _ _
  | mask | unmask | pend | unpend => exact writeOp_withTaken s b _ _
  | isEnabled | isPending | getPriority => exact readOp_withTaken s b _ _
  | getModeBitWidth | getLevelBitWidth | hasInterruptVectoring | getNumInt | getPossibleLevelBits | getVersion
  | getMaxInterrupts =>
    simp only [exec, execGetModeBitWidth, execGetLevelBitWidth, execHasInterruptVectoring, execGetNumInt,
      execGetPossibleLevelBits, execGetVersion, execGetMaxInterrupts, readOp_withTaken]
  | setPriority | enableShv | disableShv | setTrig | setModeBitWidth | setLevelBitWidth =>
    exact updateOp_withTaken s b _ _ _ _ _
  | isActive | mtvecAddress => rfl
  | mtvecTrapMode =>
    simp only [exec, execMtvecTrapMode, State.withTaken_build, State.withTaken_csrRead]
    split <;> rfl
  | mtvecSubMode =>
    simp only [exec, execMtvecSubMode, State.withTaken_build, State.withTaken_csrRead]
    by_cases hclic : s.build.clicSupport = true
    · simp only [hclic, if_true]
      split <;> rfl
    · simp only [hclic]
      rfl
  | mtvecWrite submode mode =>
    simp only [exec, execMtvecWrite, State.withTaken_build]
    by_cases hwf : mode.wf s.build.clicSupport = true
    · simp only [hwf, if_true]
      rfl
    · simp only [hwf]
      rfl

end

/-- Settles O9: `exec_withTaken`, in the words of the statement. -/
theorem theGateGuardsNothing : Obligations.TheGateGuardsNothing := by
  intro i s b htake hsteal
  refine (exec_withTaken s b htake hsteal).trans ?_
  cases exec i s <;> rfl

/-! ## A step and the gate -/

/-- Between the fetch of an operation and its transaction nothing reaches `TAKEN`. -/
theorem fetch_run_taken {s u : State} {i : Instr} (h : fetch s = .run i u) : u.taken = s.taken := by
  obtain ⟨q, m, c, -, rfl | ⟨rest, rfl⟩⟩ := fetch_run h <;> rfl

/-- A step that runs one of the two operations of the gate leaves `TAKEN` set. -/
theorem step_taken_of_gate {s t u : State} (hgate : fetch s = .run .take u ∨ fetch s = .run .steal u)
    (h : step s = .next t) : t.taken = true := by
  obtain hf | hf := hgate
  · rw [step_run hf, exec_take] at h
    cases h
    rfl
  · rw [step_run hf, exec_steal] at h
    cases h
    rfl

/-- R112 (a): a step that changes `TAKEN` ran the gate, and so has set it. -/
theorem step_keeps_taken {s t : State} (h : step s = .next t) (hs : s.taken = true) : t.taken = true := by
  by_cases hne : t.taken = s.taken
  · rw [hne, hs]
  · obtain ⟨u, hgate⟩ := step_taken_ne h hne
    exact step_taken_of_gate hgate h

/-- The operation and the status that `State.answers` names are those of the step's fetch and reply. -/
theorem answers_eq_some {s : State} {i : Instr} {st : Status} (h : s.answers = some (i, st)) :
    ∃ u t q x, fetch s = .run i u ∧ step s = .next t ∧ t.out = some (.reply q st x) := by
  unfold State.answers at h
  split at h
  case h_1 j u t hf hstep =>
    split at h <;> cases h
    next q x hout => exact ⟨u, t, q, x, hf, hstep, hout⟩
  all_goals cases h

/-- `TAKE` replies `OK` only from `TAKEN = 0` (R110). -/
theorem takeSucceeds_taken {s : State} (h : takeSucceeds s = true) :
    s.taken = false ∧ ∃ u, fetch s = .run .take u := by
  obtain ⟨u, t, q, x, hf, hstep, hout⟩ := answers_eq_some (eq_of_beq h)
  refine ⟨?_, u, hf⟩
  rw [step_run hf, exec_take, fetch_run_taken hf] at hstep
  cases hstep
  cases hs : s.taken with
  | false => rfl
  | true => simp [hs] at hout

/-- A handle that no `TAKE` won was handed out by a `STEAL` (R112 (c)). -/
theorem takeSucceeds_or_runsSteal {s : State} (h : handsOut s = true) :
    takeSucceeds s = true ∨ runsSteal s = true := by
  obtain htake | hsteal := Bool.or_eq_true_iff.1 h
  · exact .inl htake
  · obtain ⟨u, -, -, -, hf, -⟩ := answers_eq_some (eq_of_beq hsteal)
    exact .inr (by simp [runsSteal, hf])

/-! ## Counting the steps of a run -/

/-- What the rest of a run counts after a step. -/
def countAfter (p : State → Bool) (n : Nat) : Host.Outcome State Fault Refusal → Nat
  | .next t => countSteps p n t
  | .fault _ => 0
  | .refused _ => 0

theorem countSteps_succ (p : State → Bool) (n : Nat) (s : State) :
    countSteps p (n + 1) s = (if p s then 1 else 0) + countAfter p n (step s) := by
  rw [countSteps]
  cases step s <;> rfl

/-- Where each step that `p` counts is counted by `q` or by `r`, so is each run. -/
theorem countSteps_le_add {p q r : State → Bool} (h : ∀ {s}, p s = true → q s = true ∨ r s = true) (n : Nat)
    (s : State) : countSteps p n s ≤ countSteps q n s + countSteps r n s := by
  induction n generalizing s with
  | zero => exact Nat.zero_le _
  | succ n ih =>
    have hhead : (if p s then 1 else 0) ≤ (if q s then 1 else 0) + (if r s then 1 else 0) := by
      have := @h s
      grind
    have htail : countAfter p n (step s) ≤ countAfter q n (step s) + countAfter r n (step s) := by
      cases step s with
      | next t => exact ih t
      | fault | refused => exact Nat.zero_le _
    simp only [countSteps_succ]
    omega

section
variable {p latch : State → Bool}

/-- A latch that every step keeps and that rules out `p` leaves nothing to count. -/
theorem countSteps_eq_zero (hkeep : ∀ {s t}, step s = .next t → latch s = true → latch t = true)
    (hstop : ∀ {s}, p s = true → latch s = false) (n : Nat) {s : State} (hs : latch s = true) :
    countSteps p n s = 0 := by
  induction n generalizing s with
  | zero => rfl
  | succ n ih =>
    have hhead : p s = false := by
      cases hp : p s with
      | false => rfl
      | true => exact hs.symm.trans (hstop hp)
    have htail : countAfter p n (step s) = 0 := by
      cases hstep : step s with
      | next t => exact ih (hkeep hstep hs)
      | fault | refused => rfl
    simp [countSteps_succ, hhead, htail]

/-- A one-shot: where the step that `p` counts also sets the latch, a run has at most one such step. -/
theorem countSteps_le_one (hkeep : ∀ {s t}, step s = .next t → latch s = true → latch t = true)
    (hstop : ∀ {s}, p s = true → latch s = false)
    (hset : ∀ {s t}, p s = true → step s = .next t → latch t = true) (n : Nat) (s : State) :
    countSteps p n s ≤ 1 := by
  induction n generalizing s with
  | zero => exact Nat.zero_le _
  | succ n ih =>
    rw [countSteps_succ]
    cases hstep : step s with
    | next t =>
      simp only [countAfter]
      by_cases hp : p s = true
      · simp [hp, countSteps_eq_zero hkeep hstop n (hset hp hstep)]
      · simpa [hp] using ih t
    | fault | refused =>
      simp only [countAfter]
      split <;> omega

end

/-- R112 (b): `TAKEN` is the latch of `TAKE`. -/
theorem countSteps_takeSucceeds_le_one (n : Nat) (s : State) : countSteps takeSucceeds n s ≤ 1 := by
  refine countSteps_le_one (latch := State.taken) step_keeps_taken ?_ ?_ n s
  · intro s h
    obtain ⟨hclear, -⟩ := takeSucceeds_taken h
    exact hclear
  · intro s t h hstep
    obtain ⟨-, u, hf⟩ := takeSucceeds_taken h
    exact step_taken_of_gate (.inl hf) hstep

/-- Settles O8: of the handles handed out at most one is `TAKE`'s, and each other one is a step that runs `STEAL`. -/
theorem theGateIsAOneShot : Obligations.TheGateIsAOneShot := by
  refine ⟨fun s t h hs => step_keeps_taken h hs, countSteps_takeSucceeds_le_one, fun n s h => ?_⟩
  have htake : countSteps takeSucceeds n s ≤ 1 := countSteps_takeSucceeds_le_one n s
  have hall : countSteps handsOut n s ≤ countSteps takeSucceeds n s + countSteps runsSteal n s :=
    countSteps_le_add takeSucceeds_or_runsSteal n s
  omega

end Sys2Proof.Machine
end

section
/-! The fields of a word by their place, and the shapes of an operation on a register that the build has. -/

namespace Sys2Proof.Machine

/-! ## The fields of a word -/

theorem readBits_eq_extractLsb' (word : Word) (high low : Nat) :
    readBits word high low = (word.extractLsb' low (high - low + 1)).setWidth 32 := by
  apply BitVec.eq_of_getLsbD_eq
  intro b hb
  rw [readBits_getLsbD, BitVec.getLsbD_setWidth, BitVec.getLsbD_extractLsb']
  simp only [hb, Nat.lt_succ_iff, decide_true, Bool.true_and]

/-- A field of one bit at the low end: the bits [31:1] of the word are discarded (R122, R123). -/
theorem readBits_bit_zero (word : Word) : readBits word 0 0 = flagWord (word.getLsbD 0) := by
  apply BitVec.eq_of_getLsbD_eq
  intro b _
  rw [readBits_getLsbD]
  cases b with
  | zero => cases word.getLsbD 0 <;> rfl
  | succ b => cases word.getLsbD 0 <;> simp [flagWord]

theorem extractLsb'_writeBits_inside (word value : Word) {high low n : Nat} (hfield : low + n ≤ high + 1)
    (hword : low + n ≤ 32) : (writeBits word high low value).extractLsb' low n = value.extractLsb' 0 n := by
  apply BitVec.eq_of_getLsbD_eq
  intro b hb
  rw [BitVec.getLsbD_extractLsb', BitVec.getLsbD_extractLsb',
    writeBits_getLsbD_inside word value (by omega) (by omega) (by omega), Nat.add_sub_cancel_left, Nat.zero_add]

theorem extractLsb'_writeBits_outside (word value : Word) {high low start n : Nat} (hlh : low ≤ high)
    (hout : start + n ≤ low ∨ high < start) :
    (writeBits word high low value).extractLsb' start n = word.extractLsb' start n := by
  apply BitVec.eq_of_getLsbD_eq
  intro b hb
  rw [BitVec.getLsbD_extractLsb', BitVec.getLsbD_extractLsb', writeBits_getLsbD_outside word value hlh (by omega)]

/-- The low 12 bits of a machine word are there in both widths. -/
theorem truncM_extractLsb'_index (m : Mxlen) (w : MWord) : (truncM m w).extractLsb' 0 12 = w.extractLsb' 0 12 := by
  cases m with
  | w32 =>
    have hones : (0xFFFFFFFF#64).extractLsb' 0 12 = BitVec.allOnes 12 := by decide
    rw [truncM, BitVec.extractLsb'_and, hones, BitVec.and_allOnes]
  | w64 => rfl

/-! ## The shapes of an operation, the register being there -/

theorem readOp_of_implemented {r : Reg} {s : State} (result : Word → MWord) (hr : r.implemented s.build = true) :
    readOp r result s = .next (s.reply .ok (result (s.stored r))) := by
  rw [readOp_eq, if_pos hr]

theorem writeOp_of_implemented {r : Reg} {s : State} (v : Word) (hr : r.implemented s.build = true) :
    writeOp r v s = .next ((s.store r v).reply .ok 0) := by
  rw [writeOp_eq, if_pos hr]

theorem State.updated_replied (s : State) (u : Update) (w : Word) : replied s (s.updated u w) .ok 0 := by
  simp [replied, State.updated]

theorem State.begun_updated_writesOnly (s : State) (i : Instr) (u : Update) (w : Word) :
    writesOnly u.reg s ((s.begun i u).updated u w) := by
  obtain ⟨hregs, -, ⟨hbuild, houtside⟩, hdraws⟩ := (s.begun i u).updated_writesOnly u w
  have hbut : keepsRegistersBut u.reg s ((s.begun i u).updated u w) := fun r hr =>
    (hregs r hr).trans (s.begun_stored i u r)
  exact ⟨hbut, keepsBytesOutside_of_registers hbuild hbut, ⟨hbuild, houtside⟩, hdraws⟩

/-- A read-modify-write taken whole completes; what it writes is `wholeOp_stored_updated`. -/
theorem wholeOp_completes {i : Instr} {u : Update} {s : State} (hu : updateOf i s.port.command = some u)
    (hr : u.reg.implemented s.build = true) (hn : s.inflightOf s.port.requester = none) :
    ∃ t, wholeOp i s = .next t ∧ replied s t .ok 0 ∧ writesOnly u.reg s t ∧ keepsInflight s t := by
  have hwhole := wholeOp_updateOf hu hr hn
  exact ⟨_, hwhole, (s.begun i u).updated_replied u _, s.begun_updated_writesOnly i u _,
    wholeOp_keepsInflight hn hwhole⟩

end Sys2Proof.Machine
end

section
/-! The per-interrupt operations (R120 to R131) and the properties of their family (R138). -/

namespace Sys2Proof.Machine

/-! ## The flag writers -/

section
variable (idx : BitVec 12) (s : State)

theorem exec_mask : exec (.mask idx) s = writeOp (.en idx.toNat) (flagWord false) s := rfl
theorem exec_unmask : exec (.unmask idx) s = writeOp (.en idx.toNat) (flagWord true) s := rfl
theorem exec_pend : exec (.pend idx) s = writeOp (.pend idx.toNat) (flagWord true) s := rfl
theorem exec_unpend : exec (.unpend idx) s = writeOp (.pend idx.toNat) (flagWord false) s := rfl

end

theorem flagWord_getLsbD_zero (f : Bool) : (flagWord f).getLsbD 0 = f := by cases f <;> rfl

theorem writeOp_en {i : Nat} {s : State} (f : Bool) (hi : i < s.build.nInt) :
    ∃ t, writeOp (.en i) (flagWord f) s = .next t ∧ t.enabled i = f ∧ replied s t .ok 0 ∧
      writesOnly (.en i) s t ∧ t.inflight = s.inflight := by
  refine ⟨_, writeOp_of_implemented _ (decide_eq_true hi), ?_, rfl, writesOnly_store .., rfl⟩
  rw [State.reply_enabled, enabled_store, if_pos rfl, flagWord_getLsbD_zero]

theorem writeOp_pend {i : Nat} {s : State} (f : Bool) (hi : i < s.build.nInt) :
    ∃ t, writeOp (.pend i) (flagWord f) s = .next t ∧ t.pending i = f ∧ replied s t .ok 0 ∧
      writesOnly (.pend i) s t ∧ t.inflight = s.inflight := by
  refine ⟨_, writeOp_of_implemented _ (decide_eq_true hi), ?_, rfl, writesOnly_store .., rfl⟩
  rw [State.reply_pending, pending_store, if_pos rfl, flagWord_getLsbD_zero]

/-- Settles O10: the two operations are `writeOp_en` with the two values of the flag. -/
theorem maskAndUnmaskWriteTheEnableFlag : Obligations.MaskAndUnmaskWriteTheEnableFlag := by
  intro idx s hi
  rw [exec_mask, exec_unmask]
  exact ⟨encodedAs_of_eq_encode (by simp [encode, encodeX, Instr.opc]),
    encodedAs_of_eq_encode (by simp [encode, encodeX, Instr.opc]), writeOp_en false hi, writeOp_en true hi⟩

/-- Settles O11: the two operations are `writeOp_pend` with the two values of the flag. -/
theorem pendAndUnpendWriteThePendingFlag : Obligations.PendAndUnpendWriteThePendingFlag := by
  intro idx s hi
  rw [exec_pend, exec_unpend]
  exact ⟨encodedAs_of_eq_encode (by simp [encode, encodeX, Instr.opc]),
    encodedAs_of_eq_encode (by simp [encode, encodeX, Instr.opc]), writeOp_pend true hi, writeOp_pend false hi⟩

/-! ## The readers -/

/-- The result of the flag readers, of whatever word has the flag in bit 0. -/
theorem wordResult_readBits_bit_zero {word : Word} {f : Bool} (h : word.getLsbD 0 = f) :
    wordResult (readBits word 0 0) = boolResult f := by
  rw [readBits_bit_zero, h]
  cases f <;> rfl

theorem readOp_flag {s : State} {r : Reg} {f : Bool} (hr : r.implemented s.build = true) (hf : s.stored r = flagWord f) :
    readOp r (fun w => wordResult (readBits w 0 0)) s = .next (s.reply .ok (boolResult f)) := by
  rw [readOp_of_implemented _ hr, hf, wordResult_readBits_bit_zero (flagWord_getLsbD_zero f)]

theorem exec_isEnabled {idx : BitVec 12} {s : State} (hi : idx.toNat < s.build.nInt) :
    exec (.isEnabled idx) s = .next (s.reply .ok (boolResult (s.enabled idx.toNat))) :=
  readOp_flag (decide_eq_true hi) rfl

theorem exec_isPending {idx : BitVec 12} {s : State} (hi : idx.toNat < s.build.nInt) :
    exec (.isPending idx) s = .next (s.reply .ok (boolResult (s.pending idx.toNat))) :=
  readOp_flag (decide_eq_true hi) rfl

/-- The draw in bits [31:1] of a raw read of the flag would not reach the result. -/
theorem readBits_rawWord_flag {s : State} {r : Reg} {f : Bool} (u : BitVec 31) (hr : r.openUpper = true)
    (hf : s.stored r = flagWord f) : boolResult f = (readBits (rawWord s r u) 0 0).setWidth 64 := by
  obtain ⟨hbit, -⟩ := rawWord_flag u hr hf
  exact (wordResult_readBits_bit_zero hbit).symm

theorem replied_congr {s t : State} {status : Status} {x y : MWord} (h : replied s t status x) (hxy : x = y) :
    replied s t status y := hxy ▸ h

/-- Settles O12: both operations reply the flag, and `readBits_rawWord_flag` says that the draw does not matter. -/
theorem flagReadersReplyTheFlag : Obligations.FlagReadersReplyTheFlag := by
  intro idx s hi
  exact ⟨encodedAs_of_eq_encode (by simp [encode, encodeX, Instr.opc]),
    encodedAs_of_eq_encode (by simp [encode, encodeX, Instr.opc]),
    ⟨_, exec_isEnabled hi, keepsBlock_reply .., rfl, fun u => replied_congr rfl (readBits_rawWord_flag u rfl rfl)⟩,
    ⟨_, exec_isPending hi, keepsBlock_reply .., rfl, fun u => replied_congr rfl (readBits_rawWord_flag u rfl rfl)⟩⟩

theorem wordResult_readBits_low_byte (word : Word) :
    wordResult (readBits word 7 0) = (word.extractLsb' 0 8).setWidth 64 := by
  rw [wordResult, readBits_eq_extractLsb']
  exact BitVec.eq_of_toNat_eq (by simp)

theorem exec_getPriority {idx : BitVec 12} {s : State} (hi : idx.toNat < s.build.nInt) :
    exec (.getPriority idx) s = .next (s.reply .ok (((s.ctlw idx.toNat).extractLsb' 0 8).setWidth 64)) := by
  rw [← wordResult_readBits_low_byte]
  exact readOp_of_implemented (r := .ctl idx.toNat) (fun w => wordResult (readBits w 7 0)) (decide_eq_true hi)

/-- Settles O13: the reply of `exec_getPriority`, and a reply changes nothing of the block. -/
theorem getPriorityReadsTheLowByte : Obligations.GetPriorityReadsTheLowByte := by
  intro idx s hi
  exact ⟨encodedAs_of_eq_encode (by simp [encode, encodeX, Instr.opc]), _, exec_getPriority hi, rfl,
    keepsBlock_reply ..⟩

/-- The width of the build does not matter to `IS_ACTIVE`: it compares bits that both widths have. -/
theorem exec_isActive (idx : BitVec 12) (s : State) :
    exec (.isActive idx) s = .next (s.reply .ok (if s.tcause.extractLsb' 0 12 = idx then 1 else 0)) := by
  have hsample : (sampleTcause s).extractLsb' 0 12 = s.tcause.extractLsb' 0 12 := truncM_extractLsb'_index ..
  simp [exec, execIsActive, boolResult, hsample]

/-- Settles O14: the reply of `exec_isActive`, and a reply changes nothing of the block. -/
theorem isActiveComparesTheCause : Obligations.IsActiveComparesTheCause := by
  intro idx s
  exact ⟨encodedAs_of_eq_encode (by simp [encode, encodeX, Instr.opc]), _, exec_isActive idx s, rfl,
    keepsBlock_reply ..⟩

/-! ## The read-modify-writes: the fields of the word written -/

theorem writeBits_priority (word : Word) (value : BitVec 8) :
    (writeBits word 7 0 (value.setWidth 32)).extractLsb' 0 8 = value ∧
    (writeBits word 7 0 (value.setWidth 32)).extractLsb' 8 24 = word.extractLsb' 8 24 := by
  refine ⟨?_, extractLsb'_writeBits_outside _ _ (by decide) (.inr (by decide))⟩
  rw [extractLsb'_writeBits_inside _ _ (by decide) (by decide), BitVec.extractLsb'_setWidth_of_le (by decide),
    BitVec.extractLsb'_eq_self]

theorem writeBits_shv (word value : Word) :
    (writeBits word 0 0 value).getLsbD 0 = value.getLsbD 0 ∧
    (writeBits word 0 0 value).extractLsb' 1 31 = word.extractLsb' 1 31 :=
  ⟨writeBits_getLsbD_inside word value (Nat.le_refl 0) (Nat.le_refl 0) (by decide),
    extractLsb'_writeBits_outside _ _ (by decide) (.inr (by decide))⟩

theorem writeBits_trig (word : Word) (code : BitVec 2) :
    (writeBits word 2 1 (code.setWidth 32)).extractLsb' 1 2 = code ∧
    (writeBits word 2 1 (code.setWidth 32)).getLsbD 0 = word.getLsbD 0 ∧
    (writeBits word 2 1 (code.setWidth 32)).extractLsb' 3 29 = word.extractLsb' 3 29 := by
  refine ⟨?_, writeBits_getLsbD_outside _ _ (by decide) (.inl (by decide)),
    extractLsb'_writeBits_outside _ _ (by decide) (.inr (by decide))⟩
  rw [extractLsb'_writeBits_inside _ _ (by decide) (by decide), BitVec.extractLsb'_setWidth_of_le (by decide),
    BitVec.extractLsb'_eq_self]

section
variable (idx : BitVec 12) (c : Command)

theorem updateOf_setPriority (value : BitVec 8) :
    updateOf (.setPriority idx value) c = some ⟨.ctl idx.toNat, 7, 0, value.setWidth 32⟩ := rfl
theorem updateOf_enableShv : updateOf (.enableShv idx) c = some ⟨.attr idx.toNat, 0, 0, 1⟩ := rfl
theorem updateOf_disableShv : updateOf (.disableShv idx) c = some ⟨.attr idx.toNat, 0, 0, 0⟩ := rfl
theorem updateOf_setTrig (trig : Trigger) :
    updateOf (.setTrig idx trig) c = some ⟨.attr idx.toNat, 2, 1, trig.code.setWidth 32⟩ := rfl

end

section
variable {idx : BitVec 12} {s t : State}

theorem wholeOp_ctlw {i : Instr} {high low : Nat} {value : Word}
    (hu : updateOf i s.port.command = some ⟨.ctl idx.toNat, high, low, value⟩)
    (hn : s.inflightOf s.port.requester = none) (h : wholeOp i s = .next t) :
    t.ctlw idx.toNat = writeBits (s.ctlw idx.toNat) high low value :=
  wholeOp_stored_updated hu hn h

theorem wholeOp_attrw {i : Instr} {high low : Nat} {value : Word}
    (hu : updateOf i s.port.command = some ⟨.attr idx.toNat, high, low, value⟩)
    (hn : s.inflightOf s.port.requester = none) (h : wholeOp i s = .next t) :
    t.attrw idx.toNat = writeBits (s.attrw idx.toNat) high low value :=
  wholeOp_stored_updated hu hn h

theorem wholeOp_setPriority_fields {value : BitVec 8} (hn : s.inflightOf s.port.requester = none)
    (h : wholeOp (.setPriority idx value) s = .next t) :
    (t.ctlw idx.toNat).extractLsb' 0 8 = value ∧
    (t.ctlw idx.toNat).extractLsb' 8 24 = (s.ctlw idx.toNat).extractLsb' 8 24 := by
  rw [wholeOp_ctlw (updateOf_setPriority ..) hn h]
  exact writeBits_priority _ value

/-- `ENABLE_SHV` and `DISABLE_SHV` differ in the value of the bit alone. -/
theorem wholeOp_shv_fields {i : Instr} {value : Word}
    (hu : updateOf i s.port.command = some ⟨.attr idx.toNat, 0, 0, value⟩)
    (hn : s.inflightOf s.port.requester = none) (h : wholeOp i s = .next t) :
    (t.attrw idx.toNat).getLsbD 0 = value.getLsbD 0 ∧
    (t.attrw idx.toNat).extractLsb' 1 31 = (s.attrw idx.toNat).extractLsb' 1 31 := by
  rw [wholeOp_attrw hu hn h]
  exact writeBits_shv _ value

theorem wholeOp_setTrig_fields {trig : Trigger} (hn : s.inflightOf s.port.requester = none)
    (h : wholeOp (.setTrig idx trig) s = .next t) :
    (t.attrw idx.toNat).extractLsb' 1 2 = trig.code ∧
    (t.attrw idx.toNat).getLsbD 0 = (s.attrw idx.toNat).getLsbD 0 ∧
    (t.attrw idx.toNat).extractLsb' 3 29 = (s.attrw idx.toNat).extractLsb' 3 29 := by
  rw [wholeOp_attrw (updateOf_setTrig ..) hn h]
  exact writeBits_trig _ trig.code

end

/-- Settles O17: `writeBits_priority` of the word that stood in the register, taken whole, and of the word in flight, in
step 2 alone. -/
theorem setPriorityWritesTheLowByte : Obligations.SetPriorityWritesTheLowByte := by
  intro idx value s hi
  have hu := updateOf_setPriority idx s.port.command value
  refine ⟨encodedAs_of_eq_encode (by simp [encode, encodeX, Instr.opc]), fun hn => ?_, fun f hf hop => ?_⟩
  · obtain ⟨t, hx, hframe⟩ := wholeOp_completes hu (decide_eq_true hi) hn
    obtain ⟨hvalue, hrest⟩ := wholeOp_setPriority_fields hn hx
    exact ⟨t, hx, hvalue, hrest, hframe⟩
  · have hx := exec_finishes hu (decide_eq_true hi) hf hop
    have hword := State.updated_stored_same hu s f.word
    obtain ⟨hvalue, hrest⟩ := writeBits_priority f.word value
    rw [← hword] at hvalue hrest
    have hframe := s.updated_writesOnly ⟨.ctl idx.toNat, 7, 0, value.setWidth 32⟩ f.word
    exact ⟨_, hx, hvalue, hrest, s.updated_replied _ f.word, hframe⟩

/-- Settles O18: both operations complete, and `wholeOp_shv_fields` says what they write. -/
theorem shvOperationsWriteBitZero : Obligations.ShvOperationsWriteBitZero := by
  intro idx s hi hn
  have henable := updateOf_enableShv idx s.port.command
  have hdisable := updateOf_disableShv idx s.port.command
  refine ⟨encodedAs_of_eq_encode (by simp [encode, encodeX, Instr.opc]),
    encodedAs_of_eq_encode (by simp [encode, encodeX, Instr.opc]), ?_, ?_⟩
  · obtain ⟨t, hx, hframe⟩ := wholeOp_completes henable (decide_eq_true hi) hn
    obtain ⟨hbit, hrest⟩ := wholeOp_shv_fields henable hn hx
    exact ⟨t, hx, hbit, hrest, hframe⟩
  · obtain ⟨t, hx, hframe⟩ := wholeOp_completes hdisable (decide_eq_true hi) hn
    obtain ⟨hbit, hrest⟩ := wholeOp_shv_fields hdisable hn hx
    exact ⟨t, hx, hbit, hrest, hframe⟩

/-- Settles O19: the operation completes, and `wholeOp_setTrig_fields` says what it writes. -/
theorem setTrigWritesTheTriggerField : Obligations.SetTrigWritesTheTriggerField := by
  intro idx trig s hi hn
  have hu := updateOf_setTrig idx s.port.command trig
  obtain ⟨t, hx, hframe⟩ := wholeOp_completes hu (decide_eq_true hi) hn
  obtain ⟨hcode, hbit, hrest⟩ := wholeOp_setTrig_fields hn hx
  exact ⟨encodedAs_of_eq_encode (by cases trig <;> simp [encode, encodeX, Instr.opc, Trigger.code]), t, hx, hcode,
    hbit, hrest, hframe⟩

/-! ## The family (R138) -/

/-- The index of the control block that a register belongs to. -/
def Reg.blockIndex : Reg → Option Nat
  | .cfg | .info => none
  | .pend i | .en i | .attr i | .ctl i => some i

theorem flagOf_blockIndex {i : Instr} {r : Reg} (h : flagOf i = some r) : r.blockIndex = (blockOf i).map index := by
  cases i <;> cases h <;> rfl

theorem updateOf_blockIndex {i : Instr} {c : Command} {u : Update} (h : updateOf i c = some u) :
    u.reg.blockIndex = (blockOf i).map index := by
  cases i <;> cases h <;> rfl

/-- An operation on a control block writes no register outside it. -/
theorem exec_stored_other_block {i : Instr} {idx : BitVec 12} {s t : State} {r : Reg} (hb : blockOf i = some idx)
    (hr : r.blockIndex ≠ some idx.toNat) (h : exec i s = .next t) : t.stored r = s.stored r := by
  have hblock : (blockOf i).map index = some idx.toNat := congrArg (Option.map index) hb
  rw [← hblock] at hr
  refine exec_stored (fun hflag => hr (flagOf_blockIndex hflag)) (fun u hu hreg => hr ?_) h
  rw [← hreg]
  exact updateOf_blockIndex hu

/-- The operations of the family on the index `idx`, `IS_ACTIVE` among them, reach the control block of `idx` alone. -/
theorem exec_family_frame {i : Instr} {idx : BitVec 12} {s t : State} (hi : blockOf i = some idx ∨ i = .isActive idx)
    (h : exec i s = .next t) :
    (∀ r : Reg, r.blockIndex ≠ some idx.toNat → t.stored r = s.stored r) ∧ t.mtvec = s.mtvec ∧ t.taken = s.taken := by
  obtain hb | rfl := hi
  · refine ⟨fun r hr => exec_stored_other_block hb hr h, ?_, ?_⟩
    · by_contra hne
      obtain ⟨sub, mode, rfl⟩ := exec_mtvec_ne h hne
      cases hb
    · by_contra hne
      obtain rfl | rfl := exec_taken_ne h hne <;> cases hb
  · rw [exec_isActive] at h
    cases h
    exact ⟨fun r _ => s.reply_stored .ok _ r, rfl, rfl⟩

/-- R138 (a). -/
theorem writeOp_en_then_isEnabled {idx : BitVec 12} {s t : State} {f : Bool} (hi : idx.toNat < s.build.nInt)
    (h : writeOp (.en idx.toNat) (flagWord f) s = .next t) :
    ∃ u, exec (.isEnabled idx) t = .next u ∧ replied t u .ok (boolResult f) := by
  obtain ⟨t', hx, hflag, -, ⟨-, -, ⟨hbuild, -⟩, -⟩, -⟩ := writeOp_en f hi
  cases h.symm.trans hx
  exact ⟨_, exec_isEnabled (hbuild ▸ hi), replied_congr rfl (congrArg boolResult hflag)⟩

/-- R138 (b). -/
theorem writeOp_pend_then_isPending {idx : BitVec 12} {s t : State} {f : Bool} (hi : idx.toNat < s.build.nInt)
    (h : writeOp (.pend idx.toNat) (flagWord f) s = .next t) :
    ∃ u, exec (.isPending idx) t = .next u ∧ replied t u .ok (boolResult f) := by
  obtain ⟨t', hx, hflag, -, ⟨-, -, ⟨hbuild, -⟩, -⟩, -⟩ := writeOp_pend f hi
  cases h.symm.trans hx
  exact ⟨_, exec_isPending (hbuild ▸ hi), replied_congr rfl (congrArg boolResult hflag)⟩

/-- R138 (c): `SET_PRIORITY` that completed had the control block, so `GET_PRIORITY` completes too. -/
theorem wholeOp_setPriority_then_getPriority {idx : BitVec 12} {value : BitVec 8} {s t : State}
    (hn : s.inflightOf s.port.requester = none) (h : wholeOp (.setPriority idx value) s = .next t) :
    ∃ u, exec (.getPriority idx) t = .next u ∧ replied t u .ok (value.setWidth 64) := by
  have hi : idx.toNat < s.build.nInt := of_decide_eq_true (wholeOp_implemented (updateOf_setPriority idx _ value) h)
  have hbuild : t.build = s.build := wholeOp_keeps (·.build) exec_build h
  obtain ⟨hvalue, -⟩ := wholeOp_setPriority_fields hn h
  exact ⟨_, exec_getPriority (hbuild ▸ hi), replied_congr rfl (congrArg (BitVec.setWidth 64) hvalue)⟩

/-- Settles O20: (a) to (c) are read after write; (d) is what each writer of `attr` keeps; (e) is that an operation of the
family writes no register outside the control block of its index. -/
theorem perInterruptFamilyProperties : Obligations.PerInterruptFamilyProperties := by
  refine ⟨fun idx s t hi => ⟨writeOp_en_then_isEnabled (f := false) hi, writeOp_en_then_isEnabled (f := true) hi,
      writeOp_pend_then_isPending (f := true) hi, writeOp_pend_then_isPending (f := false) hi⟩,
    fun idx value s t hn h => ?_, fun idx trig s t hn => ⟨fun h => ?_, fun h => ?_⟩, fun i idx j s t hi hj h => ?_⟩
  · obtain ⟨-, hrest⟩ := wholeOp_setPriority_fields hn h
    exact ⟨wholeOp_setPriority_then_getPriority hn h, hrest⟩
  · obtain ⟨-, hkept⟩ := wholeOp_setTrig_fields hn h
    exact hkept
  · obtain h | h := h
    · obtain ⟨-, hrest⟩ := wholeOp_shv_fields (updateOf_enableShv ..) hn h
      exact hrest
    · obtain ⟨-, hrest⟩ := wholeOp_shv_fields (updateOf_disableShv ..) hn h
      exact hrest
  · obtain ⟨hother, hmtvec, htaken⟩ := exec_family_frame hi h
    have hblock : some j ≠ some idx.toNat := by simpa using hj
    exact ⟨flagWord_injective (hother (.pend j) hblock), flagWord_injective (hother (.en j) hblock),
      hother (.attr j) hblock, hother (.ctl j) hblock, hother .cfg nofun, hmtvec, htaken⟩

end Sys2Proof.Machine
end

section
/-! The global operations on `cliccfg` and `clicinfo` (R150 to R158) and the properties of their family (R159). -/

namespace Sys2Proof.Machine

/-! ## The readers -/

/-- The result of a reader of a field is the field by its place, zero-extended to the width of the port. -/
theorem wordResult_readBits (word : Word) {high low : Nat} (hwidth : high - low + 1 ≤ 32) :
    wordResult (readBits word high low) = (word.extractLsb' low (high - low + 1)).setWidth 64 := by
  rw [wordResult, readBits_eq_extractLsb', BitVec.setWidth_setWidth (by omega)]

theorem readOp_field {r : Reg} {s : State} {high low : Nat} (hr : r.implemented s.build = true)
    (hwidth : high - low + 1 ≤ 32) :
    readOp r (fun w => wordResult (readBits w high low)) s =
      .next (s.reply .ok (((s.stored r).extractLsb' low (high - low + 1)).setWidth 64)) := by
  rw [readOp_of_implemented _ hr, wordResult_readBits _ hwidth]

/-- The vectoring flag is true when the bit is clear (R154). -/
theorem boolResult_readBits_bit_zero (word : Word) :
    boolResult (readBits word 0 0 == 0) = if word.getLsbD 0 = false then 1 else 0 := by
  rw [readBits_bit_zero]
  cases word.getLsbD 0 <;> rfl

section
variable (s : State)

theorem exec_getModeBitWidth :
    exec .getModeBitWidth s = .next (s.reply .ok ((s.cfgw.extractLsb' 5 2).setWidth 64)) :=
  readOp_field (r := .cfg) rfl (by decide)

theorem exec_getLevelBitWidth :
    exec .getLevelBitWidth s = .next (s.reply .ok ((s.cfgw.extractLsb' 1 4).setWidth 64)) :=
  readOp_field (r := .cfg) rfl (by decide)

theorem exec_hasInterruptVectoring :
    exec .hasInterruptVectoring s = .next (s.reply .ok (if s.cfgw.getLsbD 0 = false then 1 else 0)) := by
  rw [← boolResult_readBits_bit_zero]
  exact readOp_of_implemented (r := .cfg) (fun w => boolResult (readBits w 0 0 == 0)) rfl

theorem exec_getNumInt :
    exec .getNumInt s = .next (s.reply .ok ((s.build.clicinfo.extractLsb' 25 6).setWidth 64)) :=
  readOp_field (r := .info) rfl (by decide)

theorem exec_getPossibleLevelBits :
    exec .getPossibleLevelBits s = .next (s.reply .ok ((s.build.clicinfo.extractLsb' 21 4).setWidth 64)) :=
  readOp_field (r := .info) rfl (by decide)

theorem exec_getVersion :
    exec .getVersion s = .next (s.reply .ok ((s.build.clicinfo.extractLsb' 13 8).setWidth 64)) :=
  readOp_field (r := .info) rfl (by decide)

theorem exec_getMaxInterrupts :
    exec .getMaxInterrupts s = .next (s.reply .ok ((s.build.clicinfo.extractLsb' 0 13).setWidth 64)) :=
  readOp_field (r := .info) rfl (by decide)

end

/-- An operation that only replies leaves the block alone. -/
theorem replied_and_keepsBlock {i : Instr} {s : State} {st : Status} {x : MWord}
    (h : exec i s = .next (s.reply st x)) : ∃ t, exec i s = .next t ∧ replied s t st x ∧ keepsBlock s t :=
  ⟨_, h, rfl, keepsBlock_reply s st x⟩

/-- Settles O24: each reader of `cliccfg` by its equation. -/
theorem configurationReadersReplyTheirField : Obligations.ConfigurationReadersReplyTheirField := by
  intro s
  exact ⟨encodedAs_of_eq_encode (by decide), encodedAs_of_eq_encode (by decide), encodedAs_of_eq_encode (by decide),
    replied_and_keepsBlock (exec_getModeBitWidth s), replied_and_keepsBlock (exec_getLevelBitWidth s),
    replied_and_keepsBlock (exec_hasInterruptVectoring s)⟩

/-- Settles O25: each reader of `clicinfo` by its equation. -/
theorem informationReadersReplyTheirField : Obligations.InformationReadersReplyTheirField := by
  intro s
  exact ⟨encodedAs_of_eq_encode (by decide), encodedAs_of_eq_encode (by decide), encodedAs_of_eq_encode (by decide),
    encodedAs_of_eq_encode (by decide), replied_and_keepsBlock (exec_getNumInt s),
    replied_and_keepsBlock (exec_getPossibleLevelBits s), replied_and_keepsBlock (exec_getVersion s),
    replied_and_keepsBlock (exec_getMaxInterrupts s)⟩

/-! ## The width setters -/

theorem updateOf_setModeBitWidth (c : Command) : updateOf .setModeBitWidth c = some ⟨.cfg, 6, 5, c.b⟩ := rfl
theorem updateOf_setLevelBitWidth (c : Command) : updateOf .setLevelBitWidth c = some ⟨.cfg, 4, 1, c.b⟩ := rfl

section
variable {s t : State}

theorem wholeOp_setModeBitWidth_cfgw (hn : s.inflightOf s.port.requester = none)
    (h : wholeOp .setModeBitWidth s = .next t) : t.cfgw = writeBits s.cfgw 6 5 s.port.command.b :=
  wholeOp_stored_updated (updateOf_setModeBitWidth _) hn h

theorem wholeOp_setLevelBitWidth_cfgw (hn : s.inflightOf s.port.requester = none)
    (h : wholeOp .setLevelBitWidth s = .next t) : t.cfgw = writeBits s.cfgw 4 1 s.port.command.b :=
  wholeOp_stored_updated (updateOf_setLevelBitWidth _) hn h

theorem wholeOp_setModeBitWidth_fields (hn : s.inflightOf s.port.requester = none)
    (h : wholeOp .setModeBitWidth s = .next t) :
    t.cfgw.extractLsb' 5 2 = s.port.command.b.extractLsb' 0 2 ∧
    t.cfgw.extractLsb' 0 5 = s.cfgw.extractLsb' 0 5 ∧ t.cfgw.extractLsb' 7 25 = s.cfgw.extractLsb' 7 25 := by
  rw [wholeOp_setModeBitWidth_cfgw hn h]
  exact ⟨extractLsb'_writeBits_inside _ _ (by decide) (by decide),
    extractLsb'_writeBits_outside _ _ (by decide) (.inl (by decide)),
    extractLsb'_writeBits_outside _ _ (by decide) (.inr (by decide))⟩

theorem wholeOp_setLevelBitWidth_fields (hn : s.inflightOf s.port.requester = none)
    (h : wholeOp .setLevelBitWidth s = .next t) :
    t.cfgw.extractLsb' 1 4 = s.port.command.b.extractLsb' 0 4 ∧
    t.cfgw.getLsbD 0 = s.cfgw.getLsbD 0 ∧ t.cfgw.extractLsb' 5 27 = s.cfgw.extractLsb' 5 27 := by
  rw [wholeOp_setLevelBitWidth_cfgw hn h]
  exact ⟨extractLsb'_writeBits_inside _ _ (by decide) (by decide),
    writeBits_getLsbD_outside _ _ (by decide) (.inl (by decide)),
    extractLsb'_writeBits_outside _ _ (by decide) (.inr (by decide))⟩

end

/-- Settles O22: the operation completes in every build, and `wholeOp_setModeBitWidth_fields` says what it writes. -/
theorem setModeBitWidthWritesItsField : Obligations.SetModeBitWidthWritesItsField := by
  intro s hn
  obtain ⟨t, hx, hframe⟩ := wholeOp_completes (updateOf_setModeBitWidth _) rfl hn
  obtain ⟨hwidth, hbelow, habove⟩ := wholeOp_setModeBitWidth_fields hn hx
  exact ⟨encodedAs_of_eq_encode (by decide), t, hx, hwidth, hbelow, habove, hframe⟩

/-- Settles O23: the operation completes in every build, and `wholeOp_setLevelBitWidth_fields` says what it writes. -/
theorem setLevelBitWidthWritesItsField : Obligations.SetLevelBitWidthWritesItsField := by
  intro s hn
  obtain ⟨t, hx, hframe⟩ := wholeOp_completes (updateOf_setLevelBitWidth _) rfl hn
  obtain ⟨hwidth, hbelow, habove⟩ := wholeOp_setLevelBitWidth_fields hn hx
  exact ⟨encodedAs_of_eq_encode (by decide), t, hx, hwidth, hbelow, habove, hframe⟩

/-! ## The family (R159) -/

theorem setWidth_extractLsb'_zero (word : Word) (n : Nat) :
    (word.extractLsb' 0 n).setWidth 64 = BitVec.ofNat 64 (word.toNat % 2 ^ n) :=
  BitVec.eq_of_toNat_eq (by simp)

/-- The operation drives the same output from both states. -/
def sameReply (i : Instr) (s t : State) : Prop :=
  ∃ u v : State, exec i s = .next u ∧ exec i t = .next v ∧ u.out = v.out

section
variable {s t : State}

theorem wholeOp_setModeBitWidth_then_getModeBitWidth (hn : s.inflightOf s.port.requester = none)
    (h : wholeOp .setModeBitWidth s = .next t) :
    ∃ u, exec .getModeBitWidth t = .next u ∧ replied t u .ok (BitVec.ofNat 64 (s.port.command.b.toNat % 4)) := by
  obtain ⟨hwidth, -⟩ := wholeOp_setModeBitWidth_fields hn h
  refine ⟨_, exec_getModeBitWidth t, replied_congr rfl ?_⟩
  rw [hwidth]
  exact setWidth_extractLsb'_zero _ 2

theorem wholeOp_setLevelBitWidth_then_getLevelBitWidth (hn : s.inflightOf s.port.requester = none)
    (h : wholeOp .setLevelBitWidth s = .next t) :
    ∃ u, exec .getLevelBitWidth t = .next u ∧ replied t u .ok (BitVec.ofNat 64 (s.port.command.b.toNat % 16)) := by
  obtain ⟨hwidth, -⟩ := wholeOp_setLevelBitWidth_fields hn h
  refine ⟨_, exec_getLevelBitWidth t, replied_congr rfl ?_⟩
  rw [hwidth]
  exact setWidth_extractLsb'_zero _ 4

theorem sameReply_of_replies {i : Instr} {st : Status} {x y : MWord} (hs : exec i s = .next (s.reply st x))
    (ht : exec i t = .next (t.reply st y)) (hport : t.port = s.port) (hxy : y = x) : sameReply i s t := by
  refine ⟨_, _, hs, ht, ?_⟩
  simp only [State.reply, hport, hxy]

theorem sameReply_getModeBitWidth (hport : t.port = s.port)
    (hfield : t.cfgw.extractLsb' 5 2 = s.cfgw.extractLsb' 5 2) : sameReply .getModeBitWidth s t :=
  sameReply_of_replies (exec_getModeBitWidth s) (exec_getModeBitWidth t) hport (by rw [hfield])

theorem sameReply_getLevelBitWidth (hport : t.port = s.port)
    (hfield : t.cfgw.extractLsb' 1 4 = s.cfgw.extractLsb' 1 4) : sameReply .getLevelBitWidth s t :=
  sameReply_of_replies (exec_getLevelBitWidth s) (exec_getLevelBitWidth t) hport (by rw [hfield])

theorem sameReply_hasInterruptVectoring (hport : t.port = s.port)
    (hbit : t.cfgw.getLsbD 0 = s.cfgw.getLsbD 0) : sameReply .hasInterruptVectoring s t :=
  sameReply_of_replies (exec_hasInterruptVectoring s) (exec_hasInterruptVectoring t) hport (by rw [hbit])

/-- The setter of the mode width is seen by no other reader of `cliccfg`. -/
theorem wholeOp_setModeBitWidth_sameReply (hn : s.inflightOf s.port.requester = none)
    (h : wholeOp .setModeBitWidth s = .next t) :
    sameReply .getLevelBitWidth s t ∧ sameReply .hasInterruptVectoring s t := by
  have hport : t.port = s.port := wholeOp_keeps (·.port) exec_port h
  have hcfg := wholeOp_setModeBitWidth_cfgw hn h
  refine ⟨sameReply_getLevelBitWidth hport ?_, sameReply_hasInterruptVectoring hport ?_⟩
  · rw [hcfg]
    exact extractLsb'_writeBits_outside _ _ (by decide) (.inl (by decide))
  · rw [hcfg]
    exact writeBits_getLsbD_outside _ _ (by decide) (.inl (by decide))

/-- The setter of the level width is seen by no other reader of `cliccfg`. -/
theorem wholeOp_setLevelBitWidth_sameReply (hn : s.inflightOf s.port.requester = none)
    (h : wholeOp .setLevelBitWidth s = .next t) :
    sameReply .getModeBitWidth s t ∧ sameReply .hasInterruptVectoring s t := by
  have hport : t.port = s.port := wholeOp_keeps (·.port) exec_port h
  obtain ⟨-, hbit, -⟩ := wholeOp_setLevelBitWidth_fields hn h
  refine ⟨sameReply_getModeBitWidth hport ?_, sameReply_hasInterruptVectoring hport hbit⟩
  rw [wholeOp_setLevelBitWidth_cfgw hn h]
  exact extractLsb'_writeBits_outside _ _ (by decide) (.inr (by decide))

/-- No operation but the two width setters writes `cliccfg`. -/
theorem wholeOp_cfgw {i : Instr} (hmode : i ≠ .setModeBitWidth) (hlevel : i ≠ .setLevelBitWidth)
    (h : wholeOp i s = .next t) : t.cfgw = s.cfgw := by
  refine wholeOp_stored (r := .cfg) (fun hflag => ?_) (fun u hu hreg => ?_) h
  · obtain ⟨idx, ⟨hr, -⟩ | ⟨hr, -⟩⟩ := flagOf_eq_some hflag <;> cases hr
  · obtain ⟨-, hi⟩ | ⟨idx, ⟨hr, -⟩ | ⟨hr, -⟩⟩ := updateOf_eq_some hu
    · exact hi.elim hmode hlevel
    · cases hreg.symm.trans hr
    · cases hreg.symm.trans hr

theorem wholeOp_cfgw_above {i : Instr} (hn : s.inflightOf s.port.requester = none) (h : wholeOp i s = .next t) :
    t.cfgw.extractLsb' 7 25 = s.cfgw.extractLsb' 7 25 := by
  by_cases hmode : i = .setModeBitWidth
  · subst hmode
    obtain ⟨-, -, habove⟩ := wholeOp_setModeBitWidth_fields hn h
    exact habove
  by_cases hlevel : i = .setLevelBitWidth
  · subst hlevel
    rw [wholeOp_setLevelBitWidth_cfgw hn h]
    exact extractLsb'_writeBits_outside _ _ (by decide) (.inr (by decide))
  · rw [wholeOp_cfgw hmode hlevel h]

end

/-- What a reader of `clicinfo` replies is fixed by the constant alone (R14). -/
theorem informationReader_replies {i : Instr}
    (hi : i ∈ [Instr.getNumInt, .getPossibleLevelBits, .getVersion, .getMaxInterrupts]) :
    ∃ result : Word → MWord, ∀ s, exec i s = .next (s.reply .ok (result s.build.clicinfo)) := by
  simp only [List.mem_cons, List.not_mem_nil, or_false] at hi
  obtain rfl | rfl | rfl | rfl := hi
  · exact ⟨fun w => (w.extractLsb' 25 6).setWidth 64, exec_getNumInt⟩
  · exact ⟨fun w => (w.extractLsb' 21 4).setWidth 64, exec_getPossibleLevelBits⟩
  · exact ⟨fun w => (w.extractLsb' 13 8).setWidth 64, exec_getVersion⟩
  · exact ⟨fun w => (w.extractLsb' 0 13).setWidth 64, exec_getMaxInterrupts⟩

/-- Settles O26: each width setter writes its field alone, no other operation writes `cliccfg`, and no step changes the
parameter that the readers of `clicinfo` reply from. -/
theorem globalFamilyProperties : Obligations.GlobalFamilyProperties := by
  refine ⟨fun s t hn h => ⟨wholeOp_setModeBitWidth_then_getModeBitWidth hn h, ?_⟩,
    fun s t hn h => ⟨wholeOp_setLevelBitWidth_then_getLevelBitWidth hn h, ?_⟩,
    fun i s t hn h => wholeOp_cfgw_above hn h, fun s t h i hi => ?_⟩
  · obtain ⟨hlevel, hvectoring⟩ := wholeOp_setModeBitWidth_sameReply hn h
    exact List.forall_mem_cons.2 ⟨hlevel, List.forall_mem_singleton.2 hvectoring⟩
  · obtain ⟨hmode, hvectoring⟩ := wholeOp_setLevelBitWidth_sameReply hn h
    exact List.forall_mem_cons.2 ⟨hmode, List.forall_mem_singleton.2 hvectoring⟩
  · obtain ⟨result, hx⟩ := informationReader_replies hi
    have hinfo : result s.build.clicinfo = result t.build.clicinfo := by rw [step_build h]
    exact ⟨.ok, result s.build.clicinfo, _, _, hx s, hx t, rfl, replied_congr rfl hinfo.symm⟩

end Sys2Proof.Machine
end

section
/-! The trap-vector register (R170 to R178): the decoders and the composer on a word, and the operations that apply them. -/

namespace Sys2Proof.Machine

/-! ## The bits of a machine word -/

theorem truncM_getLsbD (m : Mxlen) (w : MWord) (k : Nat) :
    (truncM m w).getLsbD k = (decide (k < mxlenBits m) && w.getLsbD k) := by
  rw [BitVec.getLsbD, truncM_toNat, Nat.testBit_mod_two_pow, BitVec.getLsbD]

/-- The low 32 bits of a machine word are there in both widths. -/
theorem truncM_extractLsb' (m : Mxlen) (w : MWord) {start n : Nat} (hlow : start + n ≤ 32) :
    (truncM m w).extractLsb' start n = w.extractLsb' start n := by
  have hm : 32 ≤ mxlenBits m := by cases m <;> decide
  apply BitVec.eq_of_getLsbD_eq
  intro k hk
  have hbit : start + k < mxlenBits m := by omega
  rw [BitVec.getLsbD_extractLsb', BitVec.getLsbD_extractLsb', truncM_getLsbD, decide_eq_true hbit, Bool.true_and]

theorem truncM_of_fitsM {m : Mxlen} {w : MWord} (h : fitsM m w = true) : truncM m w = w := beq_iff_eq.1 h

/-- Masking the low `n` bits clears them and keeps the others. -/
theorem getLsbD_and_not_lowMask (w : MWord) (n k : Nat) :
    (w &&& ~~~BitVec.ofNat 64 (2 ^ n - 1)).getLsbD k = (decide (n ≤ k) && w.getLsbD k) := by
  by_cases hk : k < 64
  · have hmask : (BitVec.ofNat 64 (2 ^ n - 1)).getLsbD k = decide (k < n) := by
      rw [BitVec.getLsbD_ofNat, Nat.testBit_two_pow_sub_one, decide_eq_true hk, Bool.true_and]
    rw [BitVec.getLsbD_and, BitVec.getLsbD_not, hmask, decide_eq_true hk, Bool.true_and, ← decide_not,
      Bool.and_comm]
    simp only [not_lt]
  · rw [BitVec.getLsbD_of_ge _ k (not_lt.1 hk), BitVec.getLsbD_of_ge w k (not_lt.1 hk), Bool.and_false]

theorem getLsbD_of_mod_two_pow_eq_zero {w : MWord} {n k : Nat} (h : w.toNat % 2 ^ n = 0) (hk : k < n) :
    w.getLsbD k = false := by
  have hbit : (w.toNat % 2 ^ n).testBit k = false := by rw [h, Nat.zero_testBit]
  rwa [Nat.testBit_mod_two_pow, decide_eq_true hk, Bool.true_and] at hbit

theorem getLsbD_of_fitsM {m : Mxlen} {w : MWord} {k : Nat} (h : fitsM m w = true) (hk : mxlenBits m ≤ k) :
    w.getLsbD k = false := by
  rw [← truncM_of_fitsM h, truncM_getLsbD, decide_eq_false (not_lt.2 hk), Bool.false_and]

/-! ## The decoder of the base address (R170) -/

/-- How many low bits of a trap-vector word are not address: fixed by the build, whatever the mode field holds. -/
def maskedBits (b : Build) : Nat := if b.clicSupport then 6 else 2

theorem two_le_maskedBits (b : Build) : 2 ≤ maskedBits b := by
  unfold maskedBits
  split <;> decide

/-- The alignment that R22 asks of an address. -/
theorem two_pow_maskedBits (b : Build) : 2 ^ maskedBits b = if b.clicSupport then 64 else 4 := by
  unfold maskedBits
  split <;> rfl

theorem tvAddress_eq_mask (b : Build) (w : MWord) :
    tvAddress b w = truncM b.mxlen (w &&& ~~~BitVec.ofNat 64 (2 ^ maskedBits b - 1)) := by
  unfold tvAddress maskedBits
  cases b.clicSupport <;> rfl

theorem tvAddress_getLsbD (b : Build) (w : MWord) (k : Nat) :
    (tvAddress b w).getLsbD k = (decide (maskedBits b ≤ k ∧ k < mxlenBits b.mxlen) && w.getLsbD k) := by
  rw [tvAddress_eq_mask, truncM_getLsbD, getLsbD_and_not_lowMask, Bool.decide_and, Bool.and_assoc, Bool.and_left_comm]

/-- Settles O27: `tvAddress_getLsbD`, with the number of masked bits written out. -/
theorem trapVectorAddressMasksTheLowBits : Obligations.TrapVectorAddressMasksTheLowBits := tvAddress_getLsbD

/-! ## The composer (R177) -/

/-- The one sub-mode has code 0 (R72), so a non-CLIC build, which does not add it, stores the same sum. -/
theorem submode_code_eq_zero (submode : SubMode) : submode.code = 0 := by cases submode; rfl

theorem submode_field_toNat (submode : SubMode) :
    ((submode.code.setWidth 64 : MWord) <<< 2).toNat = submode.code.toNat * 4 := by
  have := submode.code.isLt
  simp only [BitVec.toNat_shiftLeft, BitVec.toNat_setWidth, Nat.shiftLeft_eq]
  omega

/-- The sum modulo `2^MXLEN`: that the carrier drops a carry out of bit 63 first does not matter (D19). -/
theorem truncM_toNat_of_carrier {m : Mxlen} {w : MWord} {n : Nat} (h : w.toNat = n % 2 ^ 64) :
    (truncM m w).toNat = n % 2 ^ mxlenBits m := by
  rw [truncM_toNat, h, Nat.mod_mod_of_dvd _ (pow_dvd_pow 2 (by cases m <;> decide))]

theorem tvCompose_toNat (b : Build) (addr : MWord) (submode : SubMode) (mode : TrapMode) :
    (tvCompose b addr submode mode).toNat =
      (if b.clicSupport then addr.toNat + submode.code.toNat * 4 + mode.code.toNat else addr.toNat + mode.code.toNat)
        % 2 ^ mxlenBits b.mxlen := by
  have hmode : (mode.code.setWidth 64 : MWord).toNat = mode.code.toNat :=
    BitVec.toNat_setWidth_of_le (by decide)
  apply truncM_toNat_of_carrier
  cases b.clicSupport with
  | true => simp only [if_true, BitVec.toNat_add, submode_field_toNat, hmode, Nat.mod_add_mod]
  | false => simp only [Bool.false_eq_true, if_false, BitVec.toNat_add, hmode]

/-- Settles O28: `tvCompose_toNat`, which holds of a wider address too. -/
theorem trapVectorComposeIsASum : Obligations.TrapVectorComposeIsASum :=
  fun b addr submode mode _ => tvCompose_toNat b addr submode mode

/-! ## The round trip (R178) -/

section
variable {b : Build} {addr : MWord}

/-- The code of a mode lies in bits [1:0]. -/
theorem mode_code_getLsbD_of_le (mode : TrapMode) {k : Nat} (hk : 2 ≤ k) :
    (mode.code.setWidth 64 : MWord).getLsbD k = false := by
  rw [BitVec.getLsbD_setWidth, BitVec.getLsbD_of_ge _ _ hk, Bool.and_false]

/-- An aligned address and a mode's code share no bit. -/
theorem aligned_and_mode_code (halign : addr.toNat % 2 ^ maskedBits b = 0) (mode : TrapMode) :
    addr &&& mode.code.setWidth 64 = 0 := by
  apply BitVec.eq_of_getLsbD_eq
  intro k _
  rw [BitVec.getLsbD_and]
  by_cases hk : k < 2
  · rw [getLsbD_of_mod_two_pow_eq_zero halign (hk.trans_le (two_le_maskedBits b)), Bool.false_and]
    exact BitVec.getLsbD_zero.symm
  · rw [mode_code_getLsbD_of_le mode (not_lt.1 hk), Bool.and_false]
    exact BitVec.getLsbD_zero.symm

/-- No carry arises from an aligned address, and the word fits the width of the build. -/
theorem tvCompose_aligned (hfits : fitsM b.mxlen addr = true) (halign : addr.toNat % 2 ^ maskedBits b = 0)
    (mode : TrapMode) : tvCompose b addr .default mode = addr ||| mode.code.setWidth 64 := by
  have hsum : addr + mode.code.setWidth 64 = addr ||| mode.code.setWidth 64 :=
    BitVec.add_eq_or_of_and_eq_zero _ _ (aligned_and_mode_code halign mode)
  have hword : fitsM b.mxlen (addr ||| mode.code.setWidth 64) = true := by
    rw [fitsM_iff, BitVec.toNat_or]
    exact Nat.or_lt_two_pow (fitsM_iff.1 hfits) (fitsM_iff.1 (fitsM_setWidth _ _ (by decide)))
  have hbuilds : tvCompose b addr .default mode = truncM b.mxlen (addr + mode.code.setWidth 64) := by
    simp [tvCompose, SubMode.code]
  rw [hbuilds, hsum, truncM_of_fitsM hword]

theorem tvAddress_aligned_or_mode (hfits : fitsM b.mxlen addr = true) (halign : addr.toNat % 2 ^ maskedBits b = 0)
    (mode : TrapMode) : tvAddress b (addr ||| mode.code.setWidth 64) = addr := by
  apply BitVec.eq_of_getLsbD_eq
  intro k _
  rw [tvAddress_getLsbD, BitVec.getLsbD_or]
  by_cases hlow : k < maskedBits b
  · rw [getLsbD_of_mod_two_pow_eq_zero halign hlow, decide_eq_false (by omega), Bool.false_and]
  by_cases hhigh : mxlenBits b.mxlen ≤ k
  · rw [getLsbD_of_fitsM hfits hhigh, decide_eq_false (by omega), Bool.false_and]
  · have hk : 2 ≤ k := (two_le_maskedBits b).trans (not_lt.1 hlow)
    rw [mode_code_getLsbD_of_le mode hk, decide_eq_true (by omega), Bool.or_false, Bool.true_and]

/-- A field in the low bits of an aligned address is zero. -/
theorem extractLsb'_aligned (halign : addr.toNat % 2 ^ maskedBits b = 0) {start n : Nat}
    (hfield : start + n ≤ maskedBits b) : addr.extractLsb' start n = 0 := by
  apply BitVec.eq_of_getLsbD_eq
  intro k hk
  rw [BitVec.getLsbD_extractLsb', getLsbD_of_mod_two_pow_eq_zero halign (by omega), Bool.and_false]
  exact BitVec.getLsbD_zero.symm

theorem tvTrapMode_aligned_or_mode (halign : addr.toNat % 2 ^ maskedBits b = 0) {mode : TrapMode}
    (hmode : mode.wf b.clicSupport = true) : tvTrapMode b (addr ||| mode.code.setWidth 64) = some mode := by
  refine decodeMode_eq_some_iff.2 ⟨?_, hmode⟩
  rw [BitVec.extractLsb'_or, extractLsb'_aligned halign (two_le_maskedBits b),
    BitVec.extractLsb'_setWidth_of_le (by decide), BitVec.extractLsb'_eq_self]
  exact BitVec.zero_or

theorem tvSubMode_aligned_or_mode (halign : addr.toNat % 2 ^ maskedBits b = 0) (hclic : b.clicSupport = true)
    (mode : TrapMode) : tvSubMode (addr ||| mode.code.setWidth 64) = some .default := by
  have hbits : maskedBits b = 6 := if_pos hclic
  refine decodeSubMode_eq_some_iff.2 ?_
  rw [BitVec.extractLsb'_or, extractLsb'_aligned halign hbits.ge]
  cases mode <;> rfl

end

/-- Settles O29: the composed word is the bitwise or (`tvCompose_aligned`), and each decoder finds its own part of it. -/
theorem trapVectorRoundTrip : Obligations.TrapVectorRoundTrip := by
  intro b addr mode hlt hmod hmode
  have hfits : fitsM b.mxlen addr = true := fitsM_iff.2 hlt
  have halign : addr.toNat % 2 ^ maskedBits b = 0 := by rwa [two_pow_maskedBits]
  rw [tvCompose_aligned hfits halign]
  exact ⟨tvAddress_aligned_or_mode hfits halign mode, tvTrapMode_aligned_or_mode halign hmode,
    fun hclic => tvSubMode_aligned_or_mode halign hclic mode, rfl⟩

/-! ## The readers of the register (R173 to R175) -/

/-- The reply to what a field decoded to: `OK` with the code, or `NONE`. -/
def State.replyDecoded (s : State) : Option MWord → State
  | some x => s.reply .ok x
  | none => s.reply .none 0

section
variable (s : State)

theorem keepsBlock_replyDecoded (code : Option MWord) : keepsBlock s (s.replyDecoded code) := by
  cases code <;> exact keepsBlock_reply ..

theorem exec_mtvecAddress : exec .mtvecAddress s = .next (s.reply .ok (tvAddress s.build (csrRead s))) := rfl

theorem exec_mtvecTrapMode :
    exec .mtvecTrapMode s =
      .next (s.replyDecoded ((decodeMode s.build.clicSupport (s.mtvec.extractLsb' 0 2)).map modeResult)) := by
  have hfield : (csrRead s).extractLsb' 0 2 = s.mtvec.extractLsb' 0 2 := truncM_extractLsb' _ _ (by decide)
  simp only [exec, execMtvecTrapMode, tvTrapMode, hfield]
  cases decodeMode s.build.clicSupport (s.mtvec.extractLsb' 0 2) <;> rfl

theorem exec_mtvecSubMode (hclic : s.build.clicSupport = true) :
    exec .mtvecSubMode s = .next (s.replyDecoded ((decodeSubMode (s.mtvec.extractLsb' 2 4)).map subModeResult)) := by
  have hfield : (csrRead s).extractLsb' 2 4 = s.mtvec.extractLsb' 2 4 := truncM_extractLsb' _ _ (by decide)
  simp only [exec, execMtvecSubMode, tvSubMode, hfield, hclic, if_true]
  cases decodeSubMode (s.mtvec.extractLsb' 2 4) <;> rfl

theorem exec_mtvecSubMode_of_plain (hplain : s.build.clicSupport = false) :
    exec .mtvecSubMode s = .next (s.reply .illegal 0) := by
  simp [exec, execMtvecSubMode, replyIllegal, hplain]

end

/-- Settles O30: the reply is `tvAddress` of the register, whose bits `tvAddress_getLsbD` gives; a bit below MXLEN is the
register's own. -/
theorem mtvecAddressRepliesTheBase : Obligations.MtvecAddressRepliesTheBase := by
  refine fun s => ⟨encodedAs_of_eq_encode (by decide), _, _, exec_mtvecAddress s, rfl, fun k => ?_, keepsBlock_reply ..⟩
  rw [tvAddress_getLsbD, csrRead, truncM_getLsbD, maskedBits]
  by_cases hk : k < mxlenBits s.build.mxlen <;> simp [hk]

theorem replied_ok_of_decoded {α : Type} {s : State} {code : Option α} {result : α → MWord} {a : α}
    (h : code = some a) : replied s (s.replyDecoded (code.map result)) .ok (result a) := by
  subst h; rfl

theorem replied_none_of_decoded {α : Type} {s : State} {code : Option α} {result : α → MWord} (h : code = none) :
    replied s (s.replyDecoded (code.map result)) .none 0 := by
  subst h; rfl

/-- Settles O31: each code is a case of `decode_mode` (R71). -/
theorem mtvecTrapModeDecodesTwoBits : Obligations.MtvecTrapModeDecodesTwoBits := by
  intro s
  refine ⟨encodedAs_of_eq_encode (by decide), _, exec_mtvecTrapMode s, keepsBlock_replyDecoded .., fun h => ?_,
    fun h => ?_, fun h => ?_, fun h hclic => ?_, fun h hplain => ?_⟩
  · exact replied_ok_of_decoded (a := TrapMode.direct) (decodeMode_eq_some_iff.2 ⟨h, rfl⟩)
  · exact replied_ok_of_decoded (a := TrapMode.vectored) (decodeMode_eq_some_iff.2 ⟨h, rfl⟩)
  · exact replied_none_of_decoded (by rw [h]; rfl)
  · exact replied_ok_of_decoded (a := TrapMode.clic) (decodeMode_eq_some_iff.2 ⟨h, hclic⟩)
  · exact replied_none_of_decoded (by rw [h, hplain]; rfl)

/-- Settles O32: `decode_submode` (R72) has one value that is not `NONE`, and a non-CLIC build has no such operation. -/
theorem mtvecSubModeDecodesFourBits : Obligations.MtvecSubModeDecodesFourBits := by
  intro s
  refine ⟨encodedAs_of_eq_encode (by decide), fun hclic => ?_, fun hplain => ?_⟩
  · refine ⟨_, exec_mtvecSubMode s hclic, keepsBlock_replyDecoded .., fun h => ?_, fun h => ?_⟩
    · exact replied_ok_of_decoded (a := SubMode.default) (decodeSubMode_eq_some_iff.2 h)
    · exact replied_none_of_decoded (if_neg h)
  · exact ⟨_, exec_mtvecSubMode_of_plain s hplain, keepsBlock_reply .., rfl⟩

/-! ## The writer of the register (R176) -/

section
variable (submode : SubMode) {mode : TrapMode} {s : State}

theorem exec_mtvecWrite_of_wf (hmode : mode.wf s.build.clicSupport = true) :
    exec (.mtvecWrite submode mode) s =
      .next ((csrWrite s (tvCompose s.build s.addrA submode mode)).reply .ok 0) := if_pos hmode

theorem exec_mtvecWrite_of_not_wf (hmode : mode.wf s.build.clicSupport = false) :
    exec (.mtvecWrite submode mode) s = .next (s.reply .illegal 0) :=
  if_neg (by rw [hmode]; exact Bool.false_ne_true)

/-- The sum of both builds, and of the operand `A` before it is cut to MXLEN bits. -/
theorem tvCompose_addrA_toNat (mode : TrapMode) (s : State) :
    (tvCompose s.build s.addrA submode mode).toNat =
      (s.port.command.a.toNat + submode.code.toNat * 4 + mode.code.toNat) % 2 ^ mxlenBits s.build.mxlen := by
  rw [tvCompose_toNat, submode_code_eq_zero, State.addrA, truncM_toNat]
  simp

end

/-- Settles O33: the word stored is the composed one, of which the CSR port cuts nothing; the port and the reply touch nothing
else. -/
theorem mtvecWriteStoresTheSum : Obligations.MtvecWriteStoresTheSum := by
  intro submode mode s
  refine ⟨encodedAs_of_eq_encode (by simp [encode, encodeV, Instr.opc]), fun hmode => ?_, fun hmode => ?_⟩
  · have hregs : keepsRegisters s ((csrWrite s (tvCompose s.build s.addrA submode mode)).reply .ok 0) :=
      fun r => by simp
    refine ⟨_, exec_mtvecWrite_of_wf submode hmode, ?_, rfl, hregs, keepsBytes_of_registers rfl hregs,
      rfl, rfl, rfl, rfl, rfl, rfl, rfl, rfl⟩
    rw [State.reply_mtvec, csrWrite_mtvec, truncM_toNat, tvCompose_addrA_toNat, Nat.mod_mod]
  · exact ⟨_, exec_mtvecWrite_of_not_wf submode hmode, rfl, keepsBlock_reply ..⟩

end Sys2Proof.Machine
end

section
/-! Exceptions (R200): an operation has none to raise, and the one stop it can meet is R46's. -/

namespace Sys2Proof.Machine

theorem stopsUnless.no_fault {there : Bool} {o : Host.Outcome State Fault Refusal} (h : stopsUnless there o)
    (f : Fault) : o ≠ .fault f := by
  obtain ⟨hnext, hrefused⟩ := h
  cases there with
  | true =>
    obtain ⟨t, rfl⟩ := hnext rfl
    exact nofun
  | false =>
    rw [hrefused rfl]
    exact nofun

theorem stopsUnless.of_refused {there : Bool} {r : Refusal}
    (h : stopsUnless there (.refused r)) : r = .unimplementedBlock ∧ there = false := by
  obtain ⟨hnext, hrefused⟩ := h
  cases there with
  | true =>
    obtain ⟨t, ht⟩ := hnext rfl
    exact nomatch ht
  | false => exact ⟨Host.Outcome.refused.inj (hrefused rfl), rfl⟩

/-- Settles O55: its three clauses are what `exec_stopsUnless` says of a fault, of a refusal and of a block that is there. -/
theorem operationsStopOnlyOnMissingBlocks : Obligations.OperationsStopOnlyOnMissingBlocks := by
  intro i s
  have hstops : stopsUnless (available s.build i) (exec i s) := exec_stopsUnless i s
  refine ⟨hstops.no_fault, fun r hr => ?_, hstops.1⟩
  rw [hr] at hstops
  exact hstops.of_refused

end Sys2Proof.Machine
end

section
/-! Interleaving and termination (R240, R250, R251): step 2 of an update, an operation to its end, and an empty schedule. -/

namespace Sys2Proof.Machine

/-! ## The empty schedule -/

theorem step_idle {s : State} (hs : s.schedule = []) : step s = .next (s.opened []) := by
  rw [step_done (fetch_nil hs), State.opened, hs]

/-- Settles O43: the idle step does what opens every step, the outputs idle, and no more. -/
theorem nothingScheduledNothingHappens : Obligations.NothingScheduledNothingHappens := by
  intro s hs
  have hregs : keepsRegisters s (s.opened []) := s.opened_stored []
  exact ⟨_, step_idle hs, rfl, rfl, hregs, keepsBytes_of_registers rfl hregs, ⟨rfl, rfl, rfl, rfl, rfl, rfl, hs.symm⟩,
    rfl, rfl⟩

/-! ## Step 2 of an update -/

/-- Settles O16: step 2 answers `updated` with the word in flight, so what stands in the register by then does not enter the
word it writes (R240). -/
theorem updatesWriteTheWordReadFirst : Obligations.UpdatesWriteTheWordReadFirst := by
  intro i u f s hu hr hf hop
  exact ⟨_, exec_finishes hu hr hf hop, State.updated_stored_same hu s f.word, s.updated_replied u f.word,
    s.updated_inflightOf_same u f.word, fun p hp => s.updated_inflightOf_other u f.word hp,
    s.updated_writesOnly u f.word⟩

/-! ## An operation to its end -/

/-- An operation of one transaction replies in that transaction. -/
theorem exec_replied {i : Instr} {s t : State} (hu : updateOf i s.port.command = none) (h : exec i s = .next t) :
    ∃ st x, replied s t st x := by
  obtain ⟨d, st, x, rfl, -⟩ | ⟨st, rfl, -⟩ | ⟨r, v, rfl, -⟩ | ⟨u, hu', -⟩ | ⟨sub, mode, v, -, rfl⟩ | ⟨-, rfl⟩ :=
    exec_next h
  · exact ⟨st, x, rfl⟩
  · exact ⟨st, 0, rfl⟩
  · exact ⟨.ok, 0, by simp [replied]⟩
  · cases hu.symm.trans hu'
  · exact ⟨.ok, 0, rfl⟩
  · exact ⟨.illegal, 0, rfl⟩

/-- With nothing in flight an operation of one transaction ends with it: there is no second one to run. -/
theorem wholeOp_of_exec {i : Instr} {s t : State} (hu : updateOf i s.port.command = none)
    (hn : s.inflightOf s.port.requester = none) (h : exec i s = .next t) : wholeOp i s = .next t := by
  have ht : t.inflightOf t.port.requester = none := by
    rw [exec_port h]
    exact (congrArg (RegMap.get none · _) (exec_inflight hu h)).trans hn
  simp [wholeOp, h, ht]

/-- An operation that the instance can perform, taken whole, completes with a reply: after its one transaction, or after the
read and the write of its update. -/
theorem wholeOp_replies {i : Instr} {s : State} (ha : available s.build i = true)
    (hn : s.inflightOf s.port.requester = none) : ∃ t st x, wholeOp i s = .next t ∧ replied s t st x := by
  cases hu : updateOf i s.port.command with
  | none =>
    obtain ⟨hnext, -⟩ := exec_stopsUnless i s
    obtain ⟨t, hx⟩ := hnext ha
    obtain ⟨st, x, hreply⟩ := exec_replied hu hx
    exact ⟨t, st, x, wholeOp_of_exec hu hn hx, hreply⟩
  | some u =>
    have hr : u.reg.implemented s.build = true := (updateOf_implemented s.build hu).trans ha
    obtain ⟨t, hwhole, hreply, -⟩ := wholeOp_completes hu hr hn
    exact ⟨t, .ok, 0, hwhole, hreply⟩

/-- Settles O56: the operation completes with a reply, and what is in flight afterwards is what was before: nothing. -/
theorem everyOperationEndsWithinTwoTransactions : Obligations.EveryOperationEndsWithinTwoTransactions := by
  intro i s ha hn
  obtain ⟨t, st, x, hwhole, hreply⟩ := wholeOp_replies ha hn
  have hkeeps : keepsInflight s t := wholeOp_keepsInflight hn hwhole
  exact ⟨t, st, x, hwhole, (hkeeps s.port.requester).trans hn, hreply⟩

end Sys2Proof.Machine
end
